-- ==== Sys2Proof/Word.lean ====
section
/-! DEFINITION. Word.lean: the word types of HCORE (00_scope.md R6, R7). -/

namespace Sys2Proof

/-- A host register or a command word (R6 `REG_W`, R90). -/
abbrev Word := BitVec 32

/-- A byte on a port, a symbol, or a code length (R6 `N_SYM`, `LEN_W`). -/
abbrev Byte := BitVec 8

/-- A node index; the value 511 is NIL (R6 `IDX_W`, `NIL`). -/
abbrev NodeIx := BitVec 9

/-- A node weight (R6 `NODEW_W`). -/
abbrev Weight := BitVec 40

/-- A stored code of 256 bits; its first code bit is the most significant one (R34, R6 `CODE_STORE`). -/
abbrev Code := BitVec 256

/-- A byte offset in the register window (R60, R6 `WIN_BYTES`). -/
abbrev Offset := BitVec 15

end Sys2Proof
end

