-- ==== Sys2Proof/Config.lean ====
section
/-! DEFINITION. Config.lean: what is fixed for one HCORE (00_scope.md R6) and the free values of the spec
(93_implementation_defined.md I7, I15, I18). An `opaque` constant has no value a proof could see. -/

namespace Sys2Proof.Config

/-- R6 `ID_VALUE`. -/
def idValue : Word := 0x48430001#32

/-- R6 `NIL`: the "no child" index. -/
def nil : NodeIx := 0x1FF#9

/-- R6 `ROOT`. -/
def root : NodeIx := 0#9

/-- R6 `MAX_CODE_LEN`. -/
def maxCodeLen : Nat := 255

/-- OPEN: one less than `OUT_CAP`, so that `OUT_CAP` is at least 1 (R6, 92_eei_decisions.md D14; log 4). -/
opaque outCapExtra : Nat

/-- R6 `OUT_CAP`: the capacity of the OUT queue, at least 1 (log 4). -/
def outCap : Nat := outCapExtra + 1

/-- OPEN: a quarter of `BASE`, so that `BASE` is a multiple of 4 (92_eei_decisions.md D3; log 5). -/
opaque baseWords : Nat

/-- R6 `BASE`: the host address of offset 0 (R60; log 5). -/
def base : Nat := 4 * baseWords

/-- The host address of an offset of the window (R227). -/
def hostAddress (a : Offset) : Nat := base + a.toNat

/-- The ways IRQ can reach a host processor that R6 and R250 name (log 5). -/
inductive IrqRoute where
  | pin (number : Nat)
  | controllerInput (number : Nat)
  deriving DecidableEq, Repr, Inhabited

/-- OPEN: R6 `IRQ_ROUTE`; no rule depends on it (log 5). -/
opaque irqRoute : IrqRoute

/-- FREE: the value of the n-th read that R65 leaves unspecified (93 I7; log 6). -/
opaque freeRead : Nat → Word

/-- FREE: what ORPH holds outside BUILD (R38, 93 I15; log 7). -/
opaque freeOrph : Nat → List NodeIx

/-- FREE: what DEPTH holds outside EXTRACT (R39, 93 I15; log 7). -/
opaque freeDepth : Nat → Vector Byte 511

/-- FREE: what ACC holds outside EXTRACT (R39, 93 I15; log 7). -/
opaque freeAcc : Nat → Vector Code 511

end Sys2Proof.Config
end

