-- ==== Sys2Proof/Syntax.lean ====
section
/-! DEFINITION. Syntax.lean: the commands of HCORE (30_encoding.md R92), the tokens of its two ports
(20_memory.md R71, R72), the registers of its window (R62), host accesses (R61) and the statements of a host
program (R96, R97). -/

namespace Sys2Proof

/-- The ten commands, one per row of spec/opcode_table.json (R92). -/
inductive Instr where
  /-- R221 -/
  | nop
  /-- R110 -/
  | build
  /-- R121 -/
  | check
  /-- R140 -/
  | extract
  /-- R180 -/
  | encode
  /-- R200 -/
  | decode
  /-- R164; `b` is the bit operand B, used as it is (R91). -/
  | wbit (b : Bool)
  /-- R165 -/
  | wclose
  /-- R166 -/
  | rbit
  /-- R222 -/
  | clear
  deriving DecidableEq, Repr

/-- A token on the IN port (R71). -/
inductive InToken where
  | byte (d : Byte)
  /-- END: the byte source is exhausted. -/
  | endStream
  /-- FAIL: a failed read. -/
  | fail
  /-- RSVD: treated as FAIL wherever a token is read. -/
  | rsvd
  deriving DecidableEq, Repr

/-- A token on the OUT port (R72). -/
inductive OutToken where
  | byte (d : Byte)
  /-- END: the normal end of one output stream. -/
  | endStream
  /-- ABORT: the stream is ended by an error. -/
  | abort
  deriving DecidableEq, Repr

/-- The registers of the window (R62); an offset that names none is reserved. -/
inductive Reg where
  | id
  | ctrl
  | status
  | cmd
  | err
  | errInfo
  | result
  | irqEn
  | cursor
  | weight (s : Byte)
  | node (i : Fin 511)
  | nodeWLo (i : Fin 511)
  | nodeWHi (i : Fin 511)
  | codeLen (s : Byte)
  | codeBits (s : Byte) (k : Fin 8)
  deriving DecidableEq, Repr

/-- What a host access does. -/
inductive AccessKind where
  | read
  | write (v : Word)
  deriving DecidableEq, Repr

/-- A host access: its kind, its byte offset in the window and its width in bytes (R61). -/
structure HostAccess where
  kind : AccessKind
  offset : Offset
  bytes : Nat
  deriving DecidableEq, Repr

/-- What an EXPECT looks at (R97): a value that a read bound to a name (R96), or a register by its own name, as the
programs of 95_test_vectors.md write it (log 13). -/
inductive Subject where
  | bound (name : String)
  | register (r : Reg)
  deriving DecidableEq, Repr

/-- The statements of a host program: the base statements of R96 and the pseudo-instructions of R97. -/
inductive HostStmt where
  /-- `WR <reg>, <value>` -/
  | wr (r : Reg) (v : Word)
  /-- `RD <reg> -> <name>` -/
  | rd (r : Reg) (name : String)
  /-- a command mnemonic with its operand -/
  | cmd (i : Instr)
  /-- `WAIT`: reads of STATUS until BUSY = 0 -/
  | wait
  /-- `RUN <cmd>`: the command, then WAIT -/
  | run (i : Instr)
  /-- `LDW <s>, <w>` -/
  | ldw (s : Byte) (w : Word)
  /-- `LDN <i>, I(<l>, <r>)` -/
  | ldnInternal (i : Fin 511) (l r : NodeIx)
  /-- `LDN <i>, L(<sym>)` -/
  | ldnLeaf (i : Fin 511) (sym : Byte)
  /-- `SRST` -/
  | srst
  /-- `ACK` -/
  | ack
  /-- `EXPECT <name> = <value>`: no access -/
  | expect (e : Subject) (v : Word)
  /-- `IN <token list>`: no access; the tokens SOURCE offers -/
  | inTokens (ts : List InToken)
  /-- `OUT <token list>`: no access; the tokens SINK receives -/
  | outTokens (ts : List OutToken)
  deriving DecidableEq, Repr

end Sys2Proof
end

