-- ==== Sys2Proof/WellFormed.lean ====
section
/-! DEFINITION. WellFormed.lean: which terms of Syntax.lean are well formed. A command's only operand is one bit
(R91) and every register index is typed by its range (R62), so every `Instr` and every `Reg` is well formed by
its type. What a term can get wrong is a host access (20_memory.md R61). -/

namespace Sys2Proof

/-- Every command is well formed: B is one bit, and no other field holds an operand (R91). -/
def Instr.wf (_ : Instr) : Bool := true

/-- R61: the access is 32 bits wide. -/
def HostAccess.widthOk (a : HostAccess) : Bool := a.bytes == 4

/-- R61, R68: the offset is a multiple of 4. -/
def HostAccess.aligned (a : HostAccess) : Bool := a.offset.extractLsb' 0 2 == 0#2

/-- R61: the access is within HCORE's contract. -/
def HostAccess.wf (a : HostAccess) : Bool := a.widthOk && a.aligned

end Sys2Proof
end

