-- ==== Sys2Proof/Decode.lean ====
section
/-! DEFINITION. Decode.lean: the command decoder, total on every 32-bit word and rejecting by name
(30_encoding.md R91 to R94), and the encoder beside it (R92). -/

namespace Sys2Proof

/-- Why a command word is illegal, one constructor per clause of R93. -/
inductive IllegalWord where
  /-- `v[31:9] != 0` -/
  | reservedBits
  /-- `v[7:0]` is in `0x0A..0xFF` -/
  | opcode
  /-- `v[8] = 1` and `v[7:0] != 0x06` -/
  | strayB
  deriving DecidableEq, Repr

/-- R91: the field OPC. -/
def opcOf (v : Word) : Byte := v.extractLsb' 0 8

/-- R91: the field B. -/
def bOf (v : Word) : Bool := v.getLsbD 8

/-- R91: the field RSV. -/
def rsvOf (v : Word) : BitVec 23 := v.extractLsb' 9 23

/-- R93: a command word is illegal. -/
def illegal (v : Word) : Bool :=
  rsvOf v != 0#23 || 0x0A#8 ≤ opcOf v || (bOf v && opcOf v != 0x06#8)

/-- R91: B must be 0 in every command but WBIT. -/
def plainRow (v : Word) (i : Instr) : Except IllegalWord Instr :=
  if bOf v then .error .strayB else .ok i

/-- R92: the command a word stands for. -/
def decode (v : Word) : Except IllegalWord Instr :=
  if rsvOf v ≠ 0#23 then .error .reservedBits
  else match (opcOf v).toNat with
    | 0x00 => plainRow v .nop
    | 0x01 => plainRow v .build
    | 0x02 => plainRow v .check
    | 0x03 => plainRow v .extract
    | 0x04 => plainRow v .encode
    | 0x05 => plainRow v .decode
    | 0x06 => .ok (.wbit (bOf v))
    | 0x07 => plainRow v .wclose
    | 0x08 => plainRow v .rbit
    | 0x09 => plainRow v .clear
    | _ => .error .opcode

/-- R92: the word of a command. -/
def encode : Instr → Word
  | .nop => 0x00000000#32
  | .build => 0x00000001#32
  | .check => 0x00000002#32
  | .extract => 0x00000003#32
  | .encode => 0x00000004#32
  | .decode => 0x00000005#32
  | .wbit b => if b then 0x00000106#32 else 0x00000006#32
  | .wclose => 0x00000007#32
  | .rbit => 0x00000008#32
  | .clear => 0x00000009#32

/-- R92: the opcode of a command. -/
def opcode (i : Instr) : Byte := opcOf (encode i)

/-- The command word of a row of spec/opcode_table.json: the bits above `nbits` are 0. -/
def tableWord (nbits w : Nat) : Word := BitVec.ofNat 32 (w % 2 ^ nbits)

/-- What the decoder reads from a table word (a command is one 32-bit register value, R90). -/
def decodeTableWord (nbits w : Nat) : Option Instr :=
  match decode (tableWord nbits w) with
  | .ok i => some i
  | .error _ => none

end Sys2Proof
end

