-- ==== Sys2Proof/Machine/State.lean ====
section
/-! DEFINITION. Machine/State.lean: all the state the spec gives HCORE (10_state.md R20 to R42), the ports and the
environment's agenda as plain data, the reasons a step can stop, and the state after reset (R47). -/

namespace Sys2Proof.Machine

/-- The conditions of the tree check (R120). -/
inductive TreeCond where
  /-- T1: the root is a leaf. -/
  | rootLeaf
  /-- T2: an internal node has a NIL child. -/
  | nilChild
  /-- T3: an internal node has a child whose index is not above its own. -/
  | childNotAbove
  deriving DecidableEq, Repr

/-- The six errors of the spec (R240). They are latched in registers; none is a fault of the model. -/
inductive ErrorKind where
  | malformedTree
  | codeLengthOverflow
  | truncatedStream
  | unalignedWriteClose
  | illegalCommand
  | notReady
  deriving DecidableEq, Repr

/-- A node word by its fields (R31). The reserved bits [30:26] read 0 and are not stored. -/
structure Node where
  left : NodeIx
  right : NodeIx
  symbol : Byte
  internal : Bool
  deriving DecidableEq, Repr

/-- What follows an OutPut once its token is taken: the rest of the command that offered it (R10, R37). -/
inductive AfterOut where
  /-- the flush inside WBIT's PutBit (R164) -/
  | bitWritten
  /-- the flush inside ENCODE's PutBit(CODE[ESYM][EBIT]) (R180); (ESYM, EBIT) is R41's encoder position -/
  | codeBit (esym : Byte) (ebit : Nat)
  /-- the flush of the last padding bit (R182) -/
  | padBit
  /-- DECODE's OutPut(BYTE(SYMBOL)) (R200) -/
  | symbol
  /-- OutPut(END): the command completes (R165, R180, R200) -/
  | ended
  /-- OutPut(ABORT) inside `raise e(info)` (R242) -/
  | aborted (e : ErrorKind) (info : Word)
  deriving DecidableEq, Repr

/-- A command's position between port primitives (R37). -/
inductive Phase where
  /-- accepted; no primitive reached yet (R220) -/
  | start
  /-- inside InTake() (R71) -/
  | inTake
  /-- inside OutPut(t) (R72), with what follows it -/
  | outPut (t : OutToken) (k : AfterOut)
  deriving DecidableEq, Repr

/-- The engine state (R37). STATUS.BUSY = 1 exactly when it is `run` (log 9). -/
inductive Engine where
  | idle
  | run (cmd : Word) (phase : Phase)
  deriving DecidableEq, Repr

/-- One move of an agent (R10; log 1). SOURCE's transfer is part of the engine's InTake. -/
inductive Event where
  /-- ENGINE makes its next atomic step. -/
  | engine
  /-- HOST makes an access (R60 to R66). -/
  | host (a : HostAccess)
  /-- HOST makes the next move of its program (R10, R95). -/
  | hostStmt
  /-- SOURCE offers one more token (R71). -/
  | offer (t : InToken)
  /-- SINK takes the oldest token of the OUT queue, if there is one (R72). -/
  | sinkTake
  deriving DecidableEq, Repr

/-- The state of HCORE and of its surroundings. INVENTORY.md lists every field with its rule and reset value. -/
structure State where
  /-- STATUS.DONE (R23) -/
  done : Bool
  /-- STATUS.ERR (R23) -/
  err : Bool
  /-- STATUS.DROPPED (R23) -/
  dropped : Bool
  /-- STATUS.TREE_VALID (R23, R43) -/
  treeValid : Bool
  /-- STATUS.TABLE_VALID (R23, R43) -/
  tableValid : Bool
  /-- STATUS.OP (R23) -/
  op : BitVec 4
  /-- ERR.CODE (R25) -/
  errCode : BitVec 4
  /-- ERRINFO (R26) -/
  errInfo : Word
  /-- RESULT: EOS at bit 1, BIT at bit 0 (R27) -/
  result : BitVec 2
  /-- IRQ_EN: ERR_IE at bit 1, DONE_IE at bit 0 (R28) -/
  irqEn : BitVec 2
  /-- WEIGHT (R30) -/
  weight : Vector Word 256
  /-- NODE (R31) -/
  node : Vector Node 511
  /-- NODEW (R32) -/
  nodew : Vector Weight 511
  /-- LEN (R33) -/
  len : Vector Byte 256
  /-- CODE (R34) -/
  code : Vector Code 256
  /-- WBUF, the write cursor's bits (R36) -/
  wbuf : Byte
  /-- WCNT, how many of them are held (R36) -/
  wcnt : BitVec 3
  /-- RBUF, the read cursor's byte (R36) -/
  rbuf : Byte
  /-- RCNT, how many of its bits are not yet delivered (R36) -/
  rcnt : BitVec 3
  /-- the engine state (R37) -/
  engine : Engine
  /-- ORPH (R38): live only inside BUILD's step, a free value otherwise (log 7) -/
  orph : List NodeIx
  /-- DEPTH (R39): live only inside EXTRACT's step, a free value otherwise (log 7) -/
  depth : Vector Byte 511
  /-- ACC (R39): live only inside EXTRACT's step, a free value otherwise (log 7) -/
  acc : Vector Code 511
  /-- DSTATE (R40) -/
  dstate : NodeIx
  /-- the OUT queue, oldest token first (R72) -/
  outq : List OutToken
  /-- MODEL'S OWN: the tokens SOURCE has offered and HCORE has not taken, oldest first (R73; log 12) -/
  source : List InToken
  /-- MODEL'S OWN: the tokens SINK has received, oldest first (log 12) -/
  sunk : List OutToken
  /-- MODEL'S OWN: the agents' moves to come (log 1) -/
  agenda : List Event
  /-- MODEL'S OWN: what HostRead has returned, oldest first (log 12) -/
  reads : List (Offset × Word)
  /-- MODEL'S OWN: the statements of the host program still to run (R10, R95; log 12, log 13) -/
  program : List HostStmt
  /-- MODEL'S OWN: the names that reads have bound, the newest first (R96; log 12, log 13) -/
  bindings : List (String × Word)
  /-- MODEL'S OWN: what each EXPECT found, oldest first (R97; log 12, log 13) -/
  checks : List Bool
  /-- MODEL'S OWN: the argument of the next free value (log 6, log 7) -/
  draws : Nat
  deriving DecidableEq, Repr

/-- Where a step has no meaning to give: states that no run from reset reaches (log 10). All are safe: the model
stops where the spec gives no effect. -/
inductive Fault where
  /-- Raised by DECODE when its walk stands at, or is sent to, node index 511, which does not exist (R6). A passing
  tree check rules it out (R201). Safe. -/
  | noSuchNode
  /-- Raised by an engine step whose phase is none of the running command's. Safe. -/
  | phaseMismatch
  /-- Raised by an engine step whose command word is illegal; R220 starts none. Safe. -/
  | illegalEngineWord
  deriving DecidableEq, Repr

/-- What the model refuses. -/
inductive Refusal where
  /-- Raised by `exec` for an instruction with no meaning yet. Safe. -/
  | notModelled (mnemonic : String)
  /-- Raised by a host access that is not 32 bits wide: "A model must refuse such an access" (R61). Safe. -/
  | accessWidth
  /-- Raised by a host access whose offset is not a multiple of 4 (R61). Safe. -/
  | accessAlignment
  deriving DecidableEq, Repr

/-- The three outcomes of a step. -/
abbrev Result := Host.Outcome State Fault Refusal

/-- A node word of all zeros: a leaf with SYMBOL 0, LEFT 0 and RIGHT 0 (R31). -/
def Node.zero : Node := { left := 0#9, right := 0#9, symbol := 0#8, internal := false }

/-- The state after power-on reset (R47, R270). ORPH, DEPTH and ACC need no value and get a DESIGN CHOICE (log 7);
the environment's fields start empty, a DESIGN CHOICE (log 12). -/
def State.reset : State where
  done := false
  err := false
  dropped := false
  treeValid := false
  tableValid := false
  op := 0#4
  errCode := 0#4
  errInfo := 0#32
  result := 0#2
  irqEn := 0#2
  weight := Vector.replicate 256 0#32
  node := Vector.replicate 511 Node.zero
  nodew := Vector.replicate 511 0#40
  len := Vector.replicate 256 0#8
  code := Vector.replicate 256 0#256
  wbuf := 0#8
  wcnt := 0#3
  rbuf := 0#8
  rcnt := 0#3
  engine := .idle
  orph := []
  depth := Vector.replicate 511 0#8
  acc := Vector.replicate 511 0#256
  dstate := 0#9
  outq := []
  source := []
  sunk := []
  agenda := []
  reads := []
  program := []
  bindings := []
  checks := []
  draws := 0

end Sys2Proof.Machine
end

