-- ==== Sys2Proof/Machine/Operands.lean ====
section
/-! DEFINITION. Machine/Operands.lean: the forms data takes: bit order (20_memory.md R69), node words (10_state.md R31),
code bits (R34), the views of narrow registers (R25 to R29, R32, R33), array reads by index, and the signals of the
ports (R71, R72). -/

namespace Sys2Proof.Machine

/-- Bit `j` counted from the most significant end, set to `b` (R69, R34). -/
def setMsb {w : Nat} (x : BitVec w) (j : Nat) (b : Bool) : BitVec w :=
  if b then x ||| BitVec.twoPow w (w - 1 - j) else x &&& ~~~(BitVec.twoPow w (w - 1 - j))

/-! ## Node words (R31) -/

/-- R31, R64: the node a host word stands for; bits [30:26] are dropped. -/
def Node.ofWord (v : Word) : Node where
  left := v.extractLsb' 0 9
  right := v.extractLsb' 9 9
  symbol := v.extractLsb' 18 8
  internal := v.getLsbD 31

/-- R31: the word a node reads back as. -/
def Node.toWord (n : Node) : Word :=
  BitVec.ofBool n.internal ++ 0#5 ++ n.symbol ++ n.right ++ n.left

/-- R118: a leaf as BUILD writes it. -/
def Node.leaf (s : Byte) : Node :=
  { left := Config.nil, right := Config.nil, symbol := s, internal := false }

/-- R118: an internal node as BUILD writes it. -/
def Node.inner (l r : NodeIx) : Node :=
  { left := l, right := r, symbol := 0#8, internal := true }

/-- R201: the child on the edge of bit `b`, 0 = LEFT and 1 = RIGHT. -/
def Node.child (n : Node) (b : Bool) : NodeIx := if b then n.right else n.left

/-- NODE[i]; index 511 names no node (R6). -/
def nodeAt (a : Vector Node 511) (i : NodeIx) : Option Node := a[i.toNat]?

/-- The index of symbol `s`'s leaf in a built tree (R118). -/
def leafIx (s : Byte) : NodeIx := BitVec.ofNat 9 (255 + s.toNat)

/-! ## The code table (R33, R34) -/

/-- LEN[s] as a number (R33). -/
def lenAt (len : Vector Byte 256) (s : Byte) : Nat := (len[s.toNat]'s.isLt).toNat

/-- CODE[s] (R34). -/
def codeAt (code : Vector Code 256) (s : Byte) : Code := code[s.toNat]'s.isLt

/-- R34: code bit `j` of a stored code; `j = 0` is the first bit emitted. -/
def codeBit (c : Code) (j : Nat) : Bool := c.getMsbD j

/-- R34: CODE_BITS[s][k], whose bit `31 - t` is code bit `32 * k + t`. -/
def codeWord (c : Code) (k : Fin 8) : Word := c.extractLsb' (224 - 32 * k.val) 32

/-! ## Views of registers -/

/-- R29: CURSOR. -/
def cursorWord (s : State) : Word :=
  0#5 ++ s.rcnt ++ s.rbuf ++ 0#5 ++ s.wcnt ++ s.wbuf

/-- R27: RESULT of a bit read. -/
def resultBit (b : Bool) : BitVec 2 := 0#1 ++ BitVec.ofBool b

/-- R27, R166: RESULT at end-of-stream. -/
def resultEos : BitVec 2 := 0b10#2

/-- R32: NODE_WLO. -/
def weightLo (w : Weight) : Word := w.extractLsb' 0 32

/-- R32: NODE_WHI. -/
def weightHi (w : Weight) : Word := (w.extractLsb' 32 8).setWidth 32

/-! ## Signals of the ports (R71, R72) -/

/-- R71: the token `in_kind` and `in_data` stand for; `in_data` means something only for BYTE. -/
def inTokenOf (kind : BitVec 2) (data : Byte) : InToken :=
  match kind.toNat with
  | 0 => .byte data
  | 1 => .endStream
  | 2 => .fail
  | _ => .rsvd

/-- R71: `in_kind` of a token. -/
def inKind : InToken → BitVec 2
  | .byte _ => 0#2
  | .endStream => 1#2
  | .fail => 2#2
  | .rsvd => 3#2

/-- R72: `out_kind` of a token; 3 is never driven. -/
def outKind : OutToken → BitVec 2
  | .byte _ => 0#2
  | .endStream => 1#2
  | .abort => 2#2

/-- R72: the token OutPut offers, with `out_valid = 1`; none when `out_valid = 0`. -/
def offeredOut (s : State) : Option OutToken :=
  match s.engine with
  | .run _ (.outPut t _) => some t
  | .run _ _ => none
  | .idle => none

/-- R72, R270: `out_valid`. -/
def outValid (s : State) : Bool := (offeredOut s).isSome

/-- R71, R270: `in_ready`, 1 only while the engine is inside InTake(). -/
def inReady (s : State) : Bool :=
  match s.engine with
  | .run _ .inTake => true
  | .run _ _ => false
  | .idle => false

end Sys2Proof.Machine
end

