-- ==== Sys2Proof/Machine/Flags.lean ====
section
/-! DEFINITION. Machine/Flags.lean: STATUS and its fields (10_state.md R23), the validity flags (R43) and the interrupt
output (R42). -/

namespace Sys2Proof.Machine

/-- STATUS.BUSY: 1 exactly when the engine state is RUN (R37; log 9). -/
def State.busy (s : State) : Bool :=
  match s.engine with
  | .idle => false
  | .run _ _ => true

/-- R23: STATUS as the host reads it. -/
def statusWord (s : State) : Word :=
  0#20 ++ s.op ++ 0#2 ++ BitVec.ofBool s.tableValid ++ BitVec.ofBool s.treeValid ++ BitVec.ofBool s.dropped
    ++ BitVec.ofBool s.err ++ BitVec.ofBool s.done ++ BitVec.ofBool s.busy

/-- R23: a host write to STATUS clears DONE and DROPPED where it writes 1, and changes nothing else. -/
def writeStatus (v : Word) (s : State) : State :=
  { s with done := s.done && !v.getLsbD 1, dropped := s.dropped && !v.getLsbD 3 }

/-- A host write was dropped (R64, R220). -/
def drop (s : State) : State := { s with dropped := true }

/-- The events that change the validity flags (R43). -/
inductive ValidityEvent where
  | buildCompletes
  | checkPasses
  | checkFails
  | extractCompletes
  | codeLengthOverflow
  | nodeWrite
  deriving DecidableEq, Repr

/-- R43: the table of the validity flags. -/
def validity (e : ValidityEvent) (s : State) : State :=
  match e with
  | .buildCompletes => { s with treeValid := true, tableValid := false }
  | .checkPasses => { s with treeValid := true }
  | .checkFails => { s with treeValid := false }
  | .extractCompletes => { s with tableValid := true }
  | .codeLengthOverflow => { s with tableValid := false }
  | .nodeWrite => { s with treeValid := false, tableValid := false }

/-- R28: IRQ_EN.DONE_IE. -/
def doneIe (s : State) : Bool := s.irqEn.getLsbD 0

/-- R28: IRQ_EN.ERR_IE. -/
def errIe (s : State) : Bool := s.irqEn.getLsbD 1

/-- R42, R250: the level of the interrupt output. -/
def irq (s : State) : Bool := (s.done && doneIe s) || (s.err && errIe s)

end Sys2Proof.Machine
end

