-- ==== Sys2Proof/Machine/Ops.lean ====
section
/-! DEFINITION. Machine/Ops.lean: the operations the meanings share: the engine's position (10_state.md R37),
completion (45_control.md R224), raising an error and clearing it (60_exceptions.md R242, R243, R247), the port
primitives (20_memory.md R71, R72) and the bit cursors (42_bit_stream.md R160, R161). -/

namespace Sys2Proof.Machine

/-! ## The engine -/

/-- The running command's position; an idle engine counts as `start` (log 14). -/
def State.phase (s : State) : Phase :=
  match s.engine with
  | .idle => .start
  | .run _ p => p

/-- The running command's word: what the engine step decodes (R220). -/
def fetch (s : State) : Option Word :=
  match s.engine with
  | .idle => none
  | .run w _ => some w

/-- The engine, running `i`, reaches the port primitive of phase `p`; the atomic step ends here (R10). -/
def enter (i : Instr) (p : Phase) (s : State) : State :=
  { s with engine := .run (encode i) p }

/-- R224: `complete()`. -/
def complete (s : State) : State :=
  { s with engine := .idle, done := true }

/-! ## Errors -/

/-- R240: the code of an error. -/
def ErrorKind.code : ErrorKind → BitVec 4
  | .malformedTree => 1#4
  | .codeLengthOverflow => 2#4
  | .truncatedStream => 3#4
  | .unalignedWriteClose => 4#4
  | .illegalCommand => 5#4
  | .notReady => 6#4

/-- R241: the number of a tree-check condition. -/
def TreeCond.number : TreeCond → Nat
  | .rootLeaf => 1
  | .nilChild => 2
  | .childNotAbove => 3

/-- R241: ERRINFO of MalformedTree, `(c << 16) | i`. -/
def malformedInfo (i : Nat) (c : TreeCond) : Word :=
  (BitVec.ofNat 32 c.number <<< 16) ||| BitVec.ofNat 32 i

/-- R241: ERRINFO of TruncatedStream, `(k << 8) | OPC`. -/
def truncatedInfo (k : BitVec 2) (opc : Byte) : Word :=
  (k.setWidth 32 <<< 8) ||| opc.setWidth 32

/-- R243: the raise emits ABORT first. -/
def abortsStream (e : ErrorKind) (i : Instr) : Bool :=
  (e == .truncatedStream || e == .unalignedWriteClose) && (i == .encode || i == .decode || i == .wclose)

/-- R242: the writes of a raise, one atomic step. DONE and OP are left alone. -/
def latch (e : ErrorKind) (info : Word) (s : State) : State :=
  { s with errCode := e.code, errInfo := info, err := true, engine := .idle }

/-- R242: `raise e(info)`, by the running command, or by acceptance when none runs yet (R220). Where R243 asks for
ABORT the engine enters OutPut(ABORT) first and latches once SINK's queue has taken it. -/
def raiseError (running : Option Instr) (e : ErrorKind) (info : Word) (s : State) : State :=
  match running with
  | none => latch e info s
  | some i => if abortsStream e i then enter i (.outPut .abort (.aborted e info)) s else latch e info s

/-- R222, R247: the return from an error: the latch and the cursors are cleared. -/
def clearError (s : State) : State :=
  { s with
    err := false, errCode := 0#4, errInfo := 0#32
    wbuf := 0#8, wcnt := 0#3, rbuf := 0#8, rcnt := 0#3
    result := 0#2, dstate := 0#9 }

/-! ## Port primitives -/

/-- R71: `InTake()`: the oldest offered token, or, when none is offered, a wait that changes nothing (log 11). -/
def inTake (k : InToken → State → Result) (s : State) : Result :=
  match s.source with
  | [] => .next s
  | t :: rest => k t { s with source := rest }

/-- R72: `OutPut(t)`: the token enters the OUT queue, or, while the queue is full, a wait that changes nothing
(log 11). -/
def outPut (t : OutToken) (k : State → Result) (s : State) : Result :=
  if s.outq.length < Config.outCap then k { s with outq := s.outq ++ [t] } else .next s

/-- R74: SINK takes the oldest token of the OUT queue, if there is one. -/
def sinkTake (s : State) : State :=
  match s.outq with
  | [] => s
  | t :: rest => { s with outq := rest, sunk := s.sunk ++ [t] }

/-- SOURCE offers one more token (R71, R73). -/
def offer (t : InToken) (s : State) : State := { s with source := s.source ++ [t] }

/-! ## The write cursor (R160) -/

/-- R160: the bit about to be written is the eighth. -/
def flushDue (s : State) : Bool := s.wcnt == 7#3

/-- R160: the writes of PutBit before any OutPut: the bit enters `WBUF[7 - WCNT]`, and WCNT counts it unless it is
the eighth. -/
def shiftIn (b : Bool) (s : State) : State :=
  { s with
    wbuf := setMsb s.wbuf s.wcnt.toNat b
    wcnt := if flushDue s then s.wcnt else s.wcnt + 1#3 }

/-- R160: the writes of PutBit after its OutPut. -/
def clearWrite (s : State) : State := { s with wbuf := 0#8, wcnt := 0#3 }

/-- R160: `PutBit(b)` inside command `i`: either the engine enters OutPut(BYTE(WBUF)) with `k` to follow, or the
command goes on with `go`. -/
def putBit (i : Instr) (k : AfterOut) (b : Bool) (go : State → State) (s : State) : State :=
  if flushDue s then enter i (.outPut (.byte (shiftIn b s).wbuf) k) (shiftIn b s) else go (shiftIn b s)

/-! ## The read cursor (R161) -/

/-- R161: a byte has been taken from IN; its eight bits are delivered from RCNT = 8 downward. -/
def loadByte (d : Byte) (s : State) : State := { s with rbuf := d }

/-- R161: with `n + 1` bits not yet delivered, the bit GetBit returns. -/
def nextBit (n : Nat) (s : State) : Bool := s.rbuf.getLsbD n

/-- R161: `n` bits are left after a GetBit. -/
def setRcnt (n : Nat) (s : State) : State := { s with rcnt := BitVec.ofNat 3 n }

/-! ## Values the spec leaves open -/

/-- R38: ORPH after BUILD is not specified: a free value of at most 256 entries (log 7). -/
def forgetOrph (s : State) : State :=
  { s with orph := (Config.freeOrph s.draws).take 256, draws := s.draws + 1 }

/-- R39: DEPTH and ACC after EXTRACT are not specified: free values (log 7). -/
def forgetScratch (s : State) : State :=
  { s with depth := Config.freeDepth s.draws, acc := Config.freeAcc s.draws, draws := s.draws + 1 }

end Sys2Proof.Machine
end

