-- ==== Sys2Proof/Machine/BitStream.lean ====
section
/-! DEFINITION. Machine/BitStream.lean: WBIT, WCLOSE and RBIT (42_bit_stream.md R164 to R166). -/

namespace Sys2Proof.Machine

/-- R164: WBIT B. -/
def execWbit (b : Bool) (s : State) : Result :=
  match s.phase with
  | .start => .next (putBit (.wbit b) .bitWritten b complete s)
  | .outPut t .bitWritten => outPut t (fun s => .next (complete (clearWrite s))) s
  | .outPut _ _ => .fault .phaseMismatch
  | .inTake => .fault .phaseMismatch

/-- R165: WCLOSE. -/
def execWclose (s : State) : Result :=
  match s.phase with
  | .start =>
    if s.wcnt = 0#3 then .next (enter .wclose (.outPut .endStream .ended) s)
    else .next (raiseError (some .wclose) .unalignedWriteClose (s.wcnt.setWidth 32) s)
  | .outPut t .ended => outPut t (fun s => .next (complete s)) s
  | .outPut t (.aborted e info) => outPut t (fun s => .next (latch e info s)) s
  | .outPut _ _ => .fault .phaseMismatch
  | .inTake => .fault .phaseMismatch

/-- R166: RBIT with `n + 1` bits not yet delivered: the next one goes to RESULT. -/
def readBit (n : Nat) (s : State) : State :=
  complete { setRcnt n s with result := resultBit (nextBit n s) }

/-- R166, R161: RBIT on the token InTake returned. -/
def readToken (t : InToken) (s : State) : Result :=
  match t with
  | .byte d => .next (readBit 7 (loadByte d s))
  | .endStream => .next (complete { s with result := resultEos })
  | .fail => .next (raiseError (some .rbit) .truncatedStream (truncatedInfo (inKind .fail) (opcode .rbit)) s)
  | .rsvd => .next (raiseError (some .rbit) .truncatedStream (truncatedInfo (inKind .rsvd) (opcode .rbit)) s)

/-- R166: RBIT. -/
def execRbit (s : State) : Result :=
  match s.phase with
  | .start =>
    match s.rcnt.toNat with
    | 0 => .next (enter .rbit .inTake s)
    | n + 1 => .next (readBit n s)
  | .inTake => inTake readToken s
  | .outPut _ _ => .fault .phaseMismatch

end Sys2Proof.Machine
end

