-- ==== Sys2Proof/Machine/Control.lean ====
section
/-! DEFINITION. Machine/Control.lean: NOP and CLEAR (45_control.md R221, R222). -/

namespace Sys2Proof.Machine

/-- R221: NOP. -/
def execNop (s : State) : Result := .next (complete s)

/-- R222: CLEAR. -/
def execClear (s : State) : Result := .next (complete (clearError s))

end Sys2Proof.Machine
end

