-- ==== Sys2Proof/Machine/TreeCheck.lean ====
section
/-! DEFINITION. Machine/TreeCheck.lean: TreeCheck() and CHECK (40_tree_builder.md R120, R121). -/

namespace Sys2Proof.Machine

/-- R120: the first condition node `i` fails, in the order T1, T2, T3. -/
def nodeCond (i : Nat) (n : Node) : Option TreeCond :=
  if i = 0 ∧ n.internal = false then some .rootLeaf
  else if n.internal = true then
    if n.left = Config.nil ∨ n.right = Config.nil then some .nilChild
    else if n.left.toNat ≤ i ∨ n.right.toNat ≤ i then some .childNotAbove
    else none
  else none

/-- R120: the scan of the nodes from index `i` up, which stops at the first failing node. -/
def treeCheckFrom (i : Nat) : List Node → Option (Nat × TreeCond)
  | [] => none
  | n :: rest =>
    match nodeCond i n with
    | some c => some (i, c)
    | none => treeCheckFrom (i + 1) rest

/-- R120: `TreeCheck()`: `none` is PASS, `some (i, c)` is FAIL(i, c). -/
def treeCheck (a : Vector Node 511) : Option (Nat × TreeCond) := treeCheckFrom 0 a.toList

/-- R121, R140, R200: how a command that checks the tree first begins: MalformedTree, or TREE_VALID and `k`. -/
def checkedTree (i : Instr) (k : State → Result) (s : State) : Result :=
  match treeCheck s.node with
  | some (n, c) => .next (raiseError (some i) .malformedTree (malformedInfo n c) (validity .checkFails s))
  | none => k (validity .checkPasses s)

/-- R121: CHECK. -/
def execCheck (s : State) : Result :=
  checkedTree .check (fun s => .next (complete s)) s

end Sys2Proof.Machine
end

