-- ==== Sys2Proof/Machine/Decoder.lean ====
section
/-! DEFINITION. Machine/Decoder.lean: DECODE (44_decoder.md R200 to R205, R208). -/

namespace Sys2Proof.Machine

/-- R201: the node the walk goes to on bit `b`, with its index; none when node index 511 is asked for (log 10). -/
def walkBit (a : Vector Node 511) (i : NodeIx) (b : Bool) : Option (NodeIx × Node) :=
  match nodeAt a i with
  | none => none
  | some n =>
    match nodeAt a (n.child b) with
    | none => none
    | some m => some (n.child b, m)

/-- R200: the loop over the `n` bits of RBUF not yet delivered: to the first leaf, where OutPut(BYTE(SYMBOL)) ends
the atomic step, or to the next InTake. -/
def decodeBits : Nat → State → Result
  | 0, s => .next (enter .decode .inTake (setRcnt 0 s))
  | n + 1, s =>
    match walkBit s.node s.dstate (nextBit n s) with
    | none => .fault .noSuchNode
    | some (c, m) =>
      if m.internal = true then decodeBits n { setRcnt n s with dstate := c }
      else .next (enter .decode (.outPut (.byte m.symbol) .symbol) { setRcnt n s with dstate := c })

/-- R200: DECODE on the token InTake returned. -/
def decodeToken (t : InToken) (s : State) : Result :=
  match t with
  | .byte d => decodeBits 8 (loadByte d s)
  | .endStream => .next (enter .decode (.outPut .endStream .ended) { s with dstate := Config.root })
  | .fail => .next (raiseError (some .decode) .truncatedStream (truncatedInfo (inKind .fail) (opcode .decode)) s)
  | .rsvd => .next (raiseError (some .decode) .truncatedStream (truncatedInfo (inKind .rsvd) (opcode .decode)) s)

/-- R200: DECODE. -/
def execDecode (s : State) : Result :=
  match s.phase with
  | .start => checkedTree .decode (fun s => decodeBits s.rcnt.toNat { s with dstate := Config.root }) s
  | .inTake => inTake decodeToken s
  | .outPut t .symbol => outPut t (fun s => decodeBits s.rcnt.toNat { s with dstate := Config.root }) s
  | .outPut t .ended => outPut t (fun s => .next (complete s)) s
  | .outPut t (.aborted e info) => outPut t (fun s => .next (latch e info s)) s
  | .outPut _ .bitWritten => .fault .phaseMismatch
  | .outPut _ (.codeBit _ _) => .fault .phaseMismatch
  | .outPut _ .padBit => .fault .phaseMismatch

end Sys2Proof.Machine
end

