-- ==== Sys2Proof/Machine/Encoder.lean ====
section
/-! DEFINITION. Machine/Encoder.lean: ENCODE (43_encoder.md R180 to R187). -/

namespace Sys2Proof.Machine

/-- R180: the `n` code bits of symbol `d` from bit `j` on, then the next InTake. A flush ends the atomic step with
the encoder at (d, j) (R41). -/
def emitCode (d : Byte) : Nat → Nat → State → State
  | 0, _, s => enter .encode .inTake s
  | n + 1, j, s =>
    putBit .encode (.codeBit d j) (codeBit (codeAt s.code d) j) (emitCode d n (j + 1)) s

/-- R182: the least symbol whose code is longer than `k`. -/
def padSymbol (len : Vector Byte 256) (k : Nat) : Option Nat :=
  len.toList.findIdx? (fun l => decide (k < l.toNat))

/-- R182: `n` padding bits, from bit `j` of symbol `p`'s code on; the last one flushes the byte. -/
def emitPad (p : Byte) : Nat → Nat → State → State
  | 0, _, s => enter .encode (.outPut .endStream .ended) s
  | n + 1, j, s =>
    putBit .encode .padBit (codeBit (codeAt s.code p) j) (emitPad p n (j + 1)) s

/-- R182, R183: `Pad()`, then OutPut(END). -/
def pad (s : State) : State :=
  if s.wcnt = 0#3 then enter .encode (.outPut .endStream .ended) s
  else
    match padSymbol s.len (8 - s.wcnt.toNat) with
    | none => raiseError (some .encode) .unalignedWriteClose (s.wcnt.setWidth 32) s
    | some p => emitPad (BitVec.ofNat 8 p) (8 - s.wcnt.toNat) 0 s

/-- R180: ENCODE on the token InTake returned. -/
def encodeToken (t : InToken) (s : State) : Result :=
  match t with
  | .byte d => .next (emitCode d (lenAt s.len d) 0 s)
  | .endStream => .next (pad s)
  | .fail => .next (raiseError (some .encode) .truncatedStream (truncatedInfo (inKind .fail) (opcode .encode)) s)
  | .rsvd => .next (raiseError (some .encode) .truncatedStream (truncatedInfo (inKind .rsvd) (opcode .encode)) s)

/-- R180: ENCODE. -/
def execEncode (s : State) : Result :=
  match s.phase with
  | .start =>
    if s.tableValid = true then .next (enter .encode .inTake s)
    else .next (raiseError (some .encode) .notReady (encode .encode) s)
  | .inTake => inTake encodeToken s
  | .outPut t (.codeBit d j) =>
    outPut t (fun s => .next (emitCode d (lenAt s.len d - (j + 1)) (j + 1) (clearWrite s))) s
  | .outPut t .padBit =>
    outPut t (fun s => .next (enter .encode (.outPut .endStream .ended) (clearWrite s))) s
  | .outPut t .ended => outPut t (fun s => .next (complete s)) s
  | .outPut t (.aborted e info) => outPut t (fun s => .next (latch e info s)) s
  | .outPut _ .bitWritten => .fault .phaseMismatch
  | .outPut _ .symbol => .fault .phaseMismatch

end Sys2Proof.Machine
end

