-- ==== Sys2Proof/Machine/Extractor.lean ====
section
/-! DEFINITION. Machine/Extractor.lean: EXTRACT (41_code_extractor.md R140 to R146). -/

namespace Sys2Proof.Machine

/-- What EXTRACT works on: the scratch and the code table (R140). -/
structure Extractor where
  depth : Vector Byte 511
  acc : Vector Code 511
  len : Vector Byte 256
  code : Vector Code 256
  deriving DecidableEq, Repr

/-- R141: the scratch of every node and the whole code table cleared. -/
def clearedExtractor : Extractor where
  depth := Vector.replicate 511 0#8
  acc := Vector.replicate 511 0#256
  len := Vector.replicate 256 0#8
  code := Vector.replicate 256 0#256

/-- DEPTH[i] as a number (R39; log 17). -/
def depthAt (x : Extractor) (i : Nat) : Nat := (x.depth[i]?.getD 0#8).toNat

/-- ACC[i] (R39; log 17). -/
def accAt (x : Extractor) (i : Nat) : Code := x.acc[i]?.getD 0#256

/-- R143: the child on the edge of bit `b` gets node `i`'s partial code with `b` at position `d`, and depth
`d + 1`. -/
def pushChild (i : Nat) (d : Nat) (c : NodeIx) (b : Bool) (x : Extractor) : Extractor :=
  { x with
    acc := x.acc.setIfInBounds c.toNat (setMsb (accAt x i) d b)
    depth := x.depth.setIfInBounds c.toNat (BitVec.ofNat 8 (d + 1)) }

/-- R144: the leaf `i` of symbol `s` gives `LEN[s]` and `CODE[s]`. -/
def recordLeaf (i : Nat) (s : Byte) (x : Extractor) : Extractor :=
  { x with
    len := x.len.set s.toNat (BitVec.ofNat 8 (depthAt x i)) s.isLt
    code := x.code.set s.toNat (accAt x i) s.isLt }

/-- R140, R142: the pass over the nodes from index `i` up; an error is the index of an internal node of depth 255
(R146). -/
def extractFrom (i : Nat) : List Node → Extractor → Except Nat Extractor
  | [], x => .ok x
  | n :: rest, x =>
    if n.internal = true then
      if depthAt x i = Config.maxCodeLen then .error i
      else extractFrom (i + 1) rest
        (pushChild i (depthAt x i) n.right true (pushChild i (depthAt x i) n.left false x))
    else extractFrom (i + 1) rest (recordLeaf i n.symbol x)

/-- R140: the table an arena gives, or the index R146 reports. -/
def extractTable (a : Vector Node 511) : Except Nat Extractor := extractFrom 0 a.toList clearedExtractor

/-- EXTRACT's results written back. -/
def State.withExtractor (s : State) (x : Extractor) : State :=
  { s with depth := x.depth, acc := x.acc, len := x.len, code := x.code }

/-- R140: EXTRACT. -/
def execExtract (s : State) : Result :=
  checkedTree .extract (fun s =>
    match extractTable s.node with
    | .error i =>
      .next (raiseError (some .extract) .codeLengthOverflow (BitVec.ofNat 32 i)
        (validity .codeLengthOverflow (forgetScratch (s.withExtractor clearedExtractor))))
    | .ok x => .next (complete (validity .extractCompletes (forgetScratch (s.withExtractor x))))) s

end Sys2Proof.Machine
end

