-- ==== Sys2Proof/Machine/TreeBuilder.lean ====
section
/-! DEFINITION. Machine/TreeBuilder.lean: BUILD (40_tree_builder.md R110 to R118). -/

namespace Sys2Proof.Machine

/-- What BUILD works on: the arena, the node weights and the orphan sequence (R110). -/
structure Builder where
  node : Vector Node 511
  nodew : Vector Weight 511
  orph : List NodeIx
  deriving DecidableEq, Repr

/-- R110: the leaf of symbol `n` at index `255 + n`, with its weight extended to 40 bits. -/
def writeLeaf (weight : Vector Word 256) (n : Nat) (b : Builder) : Builder :=
  { b with
    node := b.node.setIfInBounds (255 + n) (Node.leaf (BitVec.ofNat 8 n))
    nodew := b.nodew.setIfInBounds (255 + n) ((weight[n]?.getD 0#32).setWidth 40) }

/-- R110: the leaves of symbols `0 .. n - 1`, in increasing order. -/
def writeLeaves (weight : Vector Word 256) : Nat → Builder → Builder
  | 0, b => b
  | n + 1, b => writeLeaf weight n (writeLeaves weight n b)

/-- R111: the first orphan sequence, `[255, 256, ..., 510]`. -/
def firstOrphans : List NodeIx := (List.range 256).map (fun p => BitVec.ofNat 9 (255 + p))

/-- NODEW[i] (R32; log 17). -/
def weightAt (w : Vector Weight 511) (i : NodeIx) : Weight := w[i.toNat]?.getD 0#40

/-- R112: the linear scan with a strict `<`, where the first minimum found wins; `p` is the position of the least
weight `w` found so far, and the list holds the positions not yet scanned with their weights. -/
def scanMin (p : Nat) (w : Weight) : List (Nat × Weight) → Nat
  | [] => p
  | (q, v) :: rest => if v < w then scanMin q v rest else scanMin p w rest

/-- R112: the least position of the least weight. -/
def firstMin : List (Nat × Weight) → Nat
  | [] => 0
  | (p, w) :: rest => scanMin p w rest

/-- R112: the positions of the orphans with the weights `w(p) = NODEW[ORPH[p]]`. -/
def candidates (b : Builder) : List (Nat × Weight) :=
  b.orph.zipIdx.map (fun x => (x.2, weightAt b.nodew x.1))

/-- R112: `SelectTwo(ORPH)`. -/
def selectTwo (c : List (Nat × Weight)) : Nat × Nat :=
  (firstMin c, firstMin (c.filter (fun x => x.1 != firstMin c)))

/-- R111: `Remove(ORPH, p1, p2)`. -/
def removeTwo (orph : List NodeIx) (p1 p2 : Nat) : List NodeIx :=
  (orph.eraseIdx (max p1 p2)).eraseIdx (min p1 p2)

/-- R110: one merge, which writes internal node `t`. -/
def merge (t : Nat) (b : Builder) : Builder :=
  let p := selectTwo (candidates b)
  let l := b.orph.getD p.1 0#9
  let r := b.orph.getD p.2 0#9
  { node := b.node.setIfInBounds t (Node.inner l r)
    nodew := b.nodew.setIfInBounds t (weightAt b.nodew l + weightAt b.nodew r)
    orph := removeTwo b.orph p.1 p.2 ++ [BitVec.ofNat 9 t] }

/-- R110, R113: the merges that write nodes `n - 1` down to 0. -/
def mergeDown : Nat → Builder → Builder
  | 0, b => b
  | n + 1, b => mergeDown n (merge n b)

/-- R110: the arena, the node weights and the orphan sequence BUILD leaves. -/
def buildTree (weight : Vector Word 256) (b : Builder) : Builder :=
  mergeDown 255 { writeLeaves weight 256 b with orph := firstOrphans }

/-- BUILD's view of the state. -/
def State.builder (s : State) : Builder := { node := s.node, nodew := s.nodew, orph := s.orph }

/-- BUILD's results written back. -/
def State.withBuilder (s : State) (b : Builder) : State :=
  { s with node := b.node, nodew := b.nodew, orph := b.orph }

/-- R110: BUILD. -/
def execBuild (s : State) : Result :=
  .next (complete (validity .buildCompletes (forgetOrph (s.withBuilder (buildTree s.weight s.builder)))))

end Sys2Proof.Machine
end

