-- ==== Sys2Proof/Machine/Dispatch.lean ====
section
/-! DEFINITION. Machine/Dispatch.lean: one arm per command (30_encoding.md R92). `exec i s` is the next atomic step of
command `i` from the engine's phase in `s` (00_scope.md R10, 10_state.md R37). -/

namespace Sys2Proof.Machine

def exec (i : Instr) (s : State) : Host.Outcome State Fault Refusal :=
  match i with
  | .nop => Sys2Proof.Machine.execNop s
  | .build => Sys2Proof.Machine.execBuild s
  | .check => Sys2Proof.Machine.execCheck s
  | .extract => Sys2Proof.Machine.execExtract s
  | .encode => Sys2Proof.Machine.execEncode s
  | .decode => Sys2Proof.Machine.execDecode s
  | .wbit b => Sys2Proof.Machine.execWbit b s
  | .wclose => Sys2Proof.Machine.execWclose s
  | .rbit => Sys2Proof.Machine.execRbit s
  | .clear => Sys2Proof.Machine.execClear s

end Sys2Proof.Machine
end

