-- ==== Sys2Proof/Machine/Window.lean ====
section
/-! DEFINITION. Machine/Window.lean: the register window: its map (20_memory.md R62), host reads (R65), host writes
(R64), the acceptance of a command (45_control.md R220) and the soft reset (70_reset_and_hazards.md R271, R272). -/

namespace Sys2Proof.Machine

/-- A node register by its index; index 511 does not exist (R62). -/
def nodeReg (mk : Fin 511 → Reg) (i : Nat) : Option Reg :=
  if h : i < 511 then some (mk ⟨i, h⟩) else none

/-- R62: the register at a word index of the first block. -/
def controlReg : Nat → Option Reg
  | 0 => some .id
  | 1 => some .ctrl
  | 2 => some .status
  | 3 => some .cmd
  | 4 => some .err
  | 5 => some .errInfo
  | 6 => some .result
  | 7 => some .irqEn
  | 8 => some .cursor
  | _ => none

/-- R62: the register at a 4-byte aligned offset; none for a reserved one (R63). -/
def regOf (a : Offset) : Option Reg :=
  let n := a.toNat
  if n < 0x0400 then controlReg (n / 4)
  else if n < 0x0800 then some (.weight (BitVec.ofNat 8 ((n - 0x0400) / 4)))
  else if n < 0x1000 then nodeReg .node ((n - 0x0800) / 4)
  else if n < 0x1800 then nodeReg .nodeWLo ((n - 0x1000) / 4)
  else if n < 0x2000 then nodeReg .nodeWHi ((n - 0x1800) / 4)
  else if n < 0x2400 then some (.codeLen (BitVec.ofNat 8 ((n - 0x2000) / 4)))
  else if n < 0x4000 then none
  else if n < 0x6000 then
    some (.codeBits (BitVec.ofNat 8 ((n - 0x4000) / 32)) (Fin.ofNat 8 ((n - 0x4000) / 4)))
  else none

/-- R62: the offset of a register. -/
def offsetOf : Reg → Offset
  | .id => 0x0000#15
  | .ctrl => 0x0004#15
  | .status => 0x0008#15
  | .cmd => 0x000C#15
  | .err => 0x0010#15
  | .errInfo => 0x0014#15
  | .result => 0x0018#15
  | .irqEn => 0x001C#15
  | .cursor => 0x0020#15
  | .weight s => BitVec.ofNat 15 (0x0400 + 4 * s.toNat)
  | .node i => BitVec.ofNat 15 (0x0800 + 4 * i.val)
  | .nodeWLo i => BitVec.ofNat 15 (0x1000 + 4 * i.val)
  | .nodeWHi i => BitVec.ofNat 15 (0x1800 + 4 * i.val)
  | .codeLen s => BitVec.ofNat 15 (0x2000 + 4 * s.toNat)
  | .codeBits s k => BitVec.ofNat 15 (0x4000 + 32 * s.toNat + 4 * k.val)

/-- R65: the register's current value. -/
def regValue (r : Reg) (s : State) : Word :=
  match r with
  | .id => Config.idValue
  | .ctrl => 0#32
  | .status => statusWord s
  | .cmd => 0#32
  | .err => s.errCode.setWidth 32
  | .errInfo => s.errInfo
  | .result => s.result.setWidth 32
  | .irqEn => s.irqEn.setWidth 32
  | .cursor => cursorWord s
  | .weight x => s.weight[x.toNat]'x.isLt
  | .node i => (s.node[i.val]'i.isLt).toWord
  | .nodeWLo i => weightLo (s.nodew[i.val]'i.isLt)
  | .nodeWHi i => weightHi (s.nodew[i.val]'i.isLt)
  | .codeLen x => (s.len[x.toNat]'x.isLt).setWidth 32
  | .codeBits x k => codeWord (codeAt s.code x) k

/-- R65: a read of the register while BUSY = 1 returns an unspecified value. -/
def openWhileBusy : Reg → Bool
  | .node _ => true
  | .nodeWLo _ => true
  | .nodeWHi _ => true
  | .codeLen _ => true
  | .codeBits _ _ => true
  | .result => true
  | .cursor => true
  | .id => false
  | .ctrl => false
  | .status => false
  | .cmd => false
  | .err => false
  | .errInfo => false
  | .irqEn => false
  | .weight _ => false

/-- R65: the read at this offset returns an unspecified value now. -/
def readIsOpen (a : Offset) (s : State) : Bool :=
  match regOf a with
  | some r => s.busy && openWhileBusy r
  | none => false

/-- R63, R65: the value of `HostRead(a)`; a free value where R65 leaves it unspecified (log 6). -/
def readValue (a : Offset) (s : State) : Word :=
  if readIsOpen a s = true then Config.freeRead s.draws
  else
    match regOf a with
    | some r => regValue r s
    | none => 0#32

/-- R65: `HostRead(a)`: the host gets the value. No state of HCORE changes (R66); a free value uses up its draw. -/
def hostRead (a : Offset) (s : State) : State :=
  { s with
    reads := s.reads ++ [(a, readValue a s)]
    draws := if readIsOpen a s = true then s.draws + 1 else s.draws }

/-- R220: the writes of an accepted legal command. -/
def accept (v : Word) (s : State) : State :=
  { s with done := false, op := v.extractLsb' 0 4, engine := .run v .start }

/-- R220: the host presents `v` as a command. -/
def present (v : Word) (s : State) : State :=
  if s.busy = true then drop s
  else if s.err = true ∧ v ≠ encode .clear then drop s
  else
    match decode v with
    | .error _ => raiseError none .illegalCommand v { s with done := false }
    | .ok _ => accept v s

/-- R271, R272: the soft reset: every piece of HCORE's state as after power-on reset; the tokens outside it, the
agenda and what belongs to the host stay (log 19). -/
def softReset (s : State) : State :=
  { State.reset with
    outq := s.outq, source := s.source, sunk := s.sunk, agenda := s.agenda, reads := s.reads
    program := s.program, bindings := s.bindings, checks := s.checks, draws := s.draws }

/-- R64: a write to NODE[i] that is not dropped. -/
def writeNode (i : Fin 511) (v : Word) (s : State) : State :=
  validity .nodeWrite { s with node := s.node.set i.val (Node.ofWord v) i.isLt }

/-- R64: a write to WEIGHT[x] that is not dropped. -/
def writeWeight (x : Byte) (v : Word) (s : State) : State :=
  { s with weight := s.weight.set x.toNat v x.isLt }

/-- R64: a host write to a register. Writes to read-only registers are ignored (R63). -/
def writeReg (r : Reg) (v : Word) (s : State) : State :=
  match r with
  | .ctrl => if v.getLsbD 0 = true then softReset s else s
  | .status => writeStatus v s
  | .irqEn => { s with irqEn := v.extractLsb' 0 2 }
  | .cmd => present v s
  | .weight x => if s.busy = true then drop s else writeWeight x v s
  | .node i => if s.busy = true then drop s else writeNode i v s
  | .id => s
  | .err => s
  | .errInfo => s
  | .result => s
  | .cursor => s
  | .nodeWLo _ => s
  | .nodeWHi _ => s
  | .codeLen _ => s
  | .codeBits _ _ => s

/-- R64: `HostWrite(a, v)`; a write at a reserved offset is ignored (R63). -/
def hostWrite (a : Offset) (v : Word) (s : State) : State :=
  match regOf a with
  | some r => writeReg r v s
  | none => s

/-- R61, R64, R65: a host access; one that is not 32 bits wide or not aligned is refused. -/
def hostAccess (a : HostAccess) (s : State) : Result :=
  if a.widthOk = false then .refused .accessWidth
  else if a.aligned = false then .refused .accessAlignment
  else
    match a.kind with
    | .read => .next (hostRead a.offset s)
    | .write v => .next (hostWrite a.offset v s)

end Sys2Proof.Machine
end

