-- ==== Sys2Proof/Machine/Program.lean ====
section
/-! DEFINITION. Machine/Program.lean: how HOST runs its program (00_scope.md R10): the access each statement makes
(30_encoding.md R96, R97), what the statement leaves to do, and the poll of WAIT (R98, 20_memory.md R78; log 13). -/

namespace Sys2Proof.Machine

/-- R61, R96: a 32-bit read of a register. -/
def readReg (r : Reg) : HostAccess := { kind := .read, offset := offsetOf r, bytes := 4 }

/-- R61, R96: a 32-bit write of a register. -/
def writeRegAccess (r : Reg) (v : Word) : HostAccess := { kind := .write v, offset := offsetOf r, bytes := 4 }

/-- R96: a command mnemonic is a write of its word to CMD. -/
def commandAccess (i : Instr) : HostAccess := writeRegAccess .cmd (encode i)

/-- R96, R97: the host access a move of the statement makes; RUN's move makes its command's, and WAIT's one read of
STATUS. -/
def stmtAccess : HostStmt → Option HostAccess
  | .wr r v => some (writeRegAccess r v)
  | .rd r _ => some (readReg r)
  | .cmd i => some (commandAccess i)
  | .wait => some (readReg .status)
  | .run i => some (commandAccess i)
  | .ldw s w => some (writeRegAccess (.weight s) w)
  | .ldnInternal i l r =>
    some (writeRegAccess (.node i) (0x80000000#32 ||| (r.setWidth 32 <<< 9) ||| l.setWidth 32))
  | .ldnLeaf i sym => some (writeRegAccess (.node i) ((sym.setWidth 32 <<< 18) ||| 0x0003FFFF#32))
  | .srst => some (writeRegAccess .ctrl 1#32)
  | .ack => some (writeRegAccess .status 0x0000000A#32)
  | .expect _ _ => none
  | .inTokens _ => none
  | .outTokens _ => none

/-- R96: a read's result is bound to a name. -/
def bindName (name : String) (v : Word) (s : State) : State := { s with bindings := (name, v) :: s.bindings }

/-- R97: the value an EXPECT looks at: what the name is bound to, or what a read of the register would give now. -/
def subjectValue (e : Subject) (s : State) : Option Word :=
  match e with
  | .bound name => s.bindings.lookup name
  | .register r => some (readValue (offsetOf r) s)

/-- R97, R98: WAIT, whose read of STATUS gave `v`: the loop `RD STATUS -> t` ends when `t[0] = 0`, and otherwise all of
it is still to do. -/
def pollStatus (v : Word) (rest : List HostStmt) (s : State) : State :=
  bindName "t" v { s with program := if v.getLsbD 0 = true then .wait :: rest else rest }

/-- R96, R97: what a statement's move does to the host, beside its access: the program goes on with `rest`, or with what
is left of the statement before it; `v` is the value a read gives. -/
def advance (st : HostStmt) (rest : List HostStmt) (v : Word) (s : State) : State :=
  match st with
  | .rd _ name => bindName name v { s with program := rest }
  | .wait => pollStatus v rest s
  | .run _ => { s with program := .wait :: rest }
  | .expect e w => { s with program := rest, checks := s.checks ++ [subjectValue e s == some w] }
  | .wr _ _ => { s with program := rest }
  | .cmd _ => { s with program := rest }
  | .ldw _ _ => { s with program := rest }
  | .ldnInternal _ _ _ => { s with program := rest }
  | .ldnLeaf _ _ => { s with program := rest }
  | .srst => { s with program := rest }
  | .ack => { s with program := rest }
  | .inTokens _ => { s with program := rest }
  | .outTokens _ => { s with program := rest }

/-- R10, R96, R97: HOST's next move in its program: at most one access. A program that has ended does nothing. -/
def hostMove (s : State) : Result :=
  match s.program with
  | [] => .next s
  | st :: rest =>
    match stmtAccess st with
    | none => .next (advance st rest 0#32 s)
    | some a => hostAccess a (advance st rest (readValue a.offset s) s)

/-- R97: the tokens the `IN` lines of a program state, in order: what SOURCE offers (log 13). -/
def programInTokens (p : List HostStmt) : List InToken :=
  p.flatMap (fun st =>
    match st with
    | .inTokens ts => ts
    | _ => [])

/-- R97: the tokens the `OUT` lines of a program state, in order: what SINK receives (log 13). -/
def programOutTokens (p : List HostStmt) : List OutToken :=
  p.flatMap (fun st =>
    match st with
    | .outTokens ts => ts
    | _ => [])

/-- R274: a host program is placed; HOST's moves run it (log 3). -/
def State.withProgram (s : State) (p : List HostStmt) : State := { s with program := p }

end Sys2Proof.Machine
end

