-- ==== Sys2Proof/Machine/Step.lean ====
section
/-! DEFINITION. Machine/Step.lean: one step: the agent whose move the agenda names makes it (00_scope.md R10; log 1). -/

namespace Sys2Proof.Machine

/-- ENGINE's move: the next atomic step of the running command; an idle engine does nothing (R37, R260). -/
def engineStep (s : State) : Result :=
  match fetch s with
  | none => .next s
  | some w =>
    match decode w with
    | .ok i => exec i s
    | .error _ => .fault .illegalEngineWord

/-- One move of the agent an event names. -/
def move (e : Event) (s : State) : Result :=
  match e with
  | .engine => engineStep s
  | .host a => hostAccess a s
  | .hostStmt => hostMove s
  | .offer t => .next (offer t s)
  | .sinkTake => .next (sinkTake s)

/-- One step: the first event of the agenda, or the engine's move when the agenda is empty (log 1, log 2). -/
def step (s : State) : Host.Outcome State Fault Refusal :=
  match s.agenda with
  | [] => engineStep s
  | e :: rest => move e { s with agenda := rest }

/-- The command of a table word has just been accepted and the engine moves next (R220; log 3). -/
def State.withFetchWord (s : State) (nbits w : Nat) : State :=
  { accept (tableWord nbits w) s with agenda := .engine :: s.agenda }

end Sys2Proof.Machine
end

