-- ==== Sys2Proof/Safety.lean ====
section
/-! DEFINITION. Safety.lean: the terms the claims use: runs, the invariant of the machine, and what the bit streams, the
tree and the code table mean in the spec's own words (10_state.md R36 to R44, 40_tree_builder.md R115, R120, R122,
41_code_extractor.md R143 to R147, 43_encoder.md R181, R182, 44_decoder.md R201 to R203). -/

namespace Sys2Proof.Machine

/-! ## Runs -/

/-- `n` steps, stopping at the first fault or refusal. -/
def runSteps : Nat → State → Result
  | 0, s => .next s
  | n + 1, s =>
    match step s with
    | .next t => runSteps n t
    | .fault f => .fault f
    | .refused r => .refused r

/-- A schedule under which SINK never lets the OUT queue fill: `n` times a SINK move and then an engine move. -/
def pump (n : Nat) : List Event := (List.replicate n [Event.sinkTake, Event.engine]).flatten

/-- The command `i` runs and stands at phase `p` (R37). -/
def Runs (i : Instr) (p : Phase) (s : State) : Prop := s.engine = .run (encode i) p

/-- The OUT queue has room for one more token (R72). -/
def hasRoom (s : State) : Prop := s.outq.length < Config.outCap

/-- Every token OUT has accepted, in order: those SINK has received and those it has not (R73, R286). -/
def emitted (s : State) : List OutToken := s.sunk ++ s.outq

/-! ## The conditions of the tree check (R120) -/

/-- Node `i` fails condition T1, T2 or T3 (R120), tested on its own. -/
def failsCond (i : Nat) (n : Node) : TreeCond → Prop
  | .rootLeaf => i = 0 ∧ n.internal = false
  | .nilChild => n.internal = true ∧ (n.left = Config.nil ∨ n.right = Config.nil)
  | .childNotAbove => n.internal = true ∧ (n.left.toNat ≤ i ∨ n.right.toNat ≤ i)

/-- Node `i` fails condition `c` and no condition before it, in the order T1, T2, T3 (R120, R245). -/
def firstCond (i : Nat) (n : Node) : TreeCond → Prop
  | .rootLeaf => failsCond i n .rootLeaf
  | .nilChild => failsCond i n .nilChild ∧ ¬ failsCond i n .rootLeaf
  | .childNotAbove => failsCond i n .childNotAbove ∧ ¬ failsCond i n .nilChild ∧ ¬ failsCond i n .rootLeaf

/-- The arena is a well-formed tree: no node fails any condition (R120). -/
def WellFormedTree (a : Vector Node 511) : Prop :=
  ∀ i (h : i < 511) c, ¬ failsCond i a[i] c

/-! ## Walks (R122, R201) -/

/-- The node reached from `i` by these edge bits, when every node stepped from is internal and every index names a
node. -/
def walkTo (a : Vector Node 511) (i : NodeIx) : List Bool → Option NodeIx
  | [] => (nodeAt a i).map (fun _ => i)
  | b :: bs =>
    match nodeAt a i with
    | none => none
    | some n => if n.internal = true then walkTo a (n.child b) bs else none

/-- The symbols of the leaves the walk on these bits reaches, in order, from node `i` and then from the root
(R201, R202); a partial walk at the end is discarded (R203). -/
def walkSymbols (a : Vector Node 511) (i : NodeIx) : List Bool → List Byte
  | [] => []
  | b :: bs =>
    match walkBit a i b with
    | none => []
    | some (c, m) => if m.internal = true then walkSymbols a c bs else m.symbol :: walkSymbols a Config.root bs

/-! ## Paths of the extractor (R143, R144) -/

/-- Node `i` is internal and has `c` as a child. -/
def isParent (a : Vector Node 511) (i c : Nat) : Bool :=
  match a[i]? with
  | none => false
  | some n => n.internal && (n.left.toNat == c || n.right.toNat == c)

/-- The highest-index parent of node `c` (R143). -/
def lastParent (a : Vector Node 511) (c : Nat) : Option Nat :=
  ((List.range 511).filter (fun i => isParent a i c)).getLast?

/-- The edge bit from node `i` to its child `c`: the right edge's write comes last (R143). -/
def edgeBit (a : Vector Node 511) (i c : Nat) : Bool :=
  match a[i]? with
  | none => false
  | some n => n.right.toNat == c

/-- The edge bits down to node `c` along highest-index parents, of at most `n` edges. -/
def pathUpTo (a : Vector Node 511) : Nat → Nat → List Bool
  | 0, _ => []
  | n + 1, c => (lastParent a c).elim [] (fun i => pathUpTo a n i ++ [edgeBit a i c])

/-- R143: the partial code of node `c`; indices rise along it (R142), so 511 edges are enough. -/
def nodePath (a : Vector Node 511) (c : Nat) : List Bool := pathUpTo a 511 c

/-- The highest-index leaf of symbol `x` (R140, R144). -/
def lastLeaf (a : Vector Node 511) (x : Byte) : Option Nat :=
  ((List.range 511).filter (fun i =>
    match a[i]? with
    | none => false
    | some n => !n.internal && n.symbol == x)).getLast?

/-- The table holds the bits `l` as the code of symbol `x`, and zeros after them (R144). -/
def TableHolds (len : Vector Byte 256) (code : Vector Code 256) (x : Byte) (l : List Bool) : Prop :=
  lenAt len x = l.length ∧ ∀ j, codeBit (codeAt code x) j = l.getD j false

/-! ## Bit strings (R8, R69) -/

/-- The code of symbol `x`, first bit first (R8, R34). -/
def codeString (len : Vector Byte 256) (code : Vector Code 256) (x : Byte) : List Bool :=
  (List.range (lenAt len x)).map (codeBit (codeAt code x))

/-- The bits of a byte, bit 7 first (R69). -/
def byteBits (d : Byte) : List Bool := (List.range 8).map d.getMsbD

/-- The byte of eight bits, the first one at bit 7 (R69). -/
def bitsByte (l : List Bool) : Byte := BitVec.ofNat 8 (l.foldl (fun n b => 2 * n + b.toNat) 0)

/-- The bits cut into bytes, MSB-first (R69, R181). -/
def packBytes (l : List Bool) : List Byte :=
  (List.range (l.length / 8)).map (fun i => bitsByte ((l.drop (8 * i)).take 8))

/-- The bits written and not yet flushed, in writing order (R36). -/
def heldBits (s : State) : List Bool := (List.range s.wcnt.toNat).map s.wbuf.getMsbD

/-- The bits of RBUF not yet delivered, in delivery order (R36). -/
def unreadBits (s : State) : List Bool := (byteBits s.rbuf).drop (8 - s.rcnt.toNat)

/-- How many bits are missing to the next byte boundary (R182). -/
def missingBits (l : List Bool) : Nat := (8 - l.length % 8) % 8

/-- Some symbol's code is longer than `k` bits (R182). -/
def padExists (len : Vector Byte 256) (k : Nat) : Prop := ∃ x : Byte, k < lenAt len x

/-- R182: `pad` completes a byte that misses `k` bits: the first `k` bits of the code of the least symbol whose code is
longer than `k`. -/
def IsPadding (len : Vector Byte 256) (code : Vector Code 256) (k : Nat) (pad : List Bool) : Prop :=
  (k = 0 ∧ pad = []) ∨
    (k ≠ 0 ∧ ∃ p : Byte, k < lenAt len p ∧ (∀ q : Byte, q < p → lenAt len q ≤ k) ∧
      pad = (codeString len code p).take k)

/-! ## The invariant of the machine -/

/-- R25, R26, R240: a latched error has a code from 1 to 6; with none latched ERR and ERRINFO are 0. -/
def ErrorLatchOk (s : State) : Prop :=
  (s.err = true → 1 ≤ s.errCode.toNat ∧ s.errCode.toNat ≤ 6) ∧
  (s.err = false → s.errCode = 0#4 ∧ s.errInfo = 0#32)

/-- R44: TABLE_VALID implies TREE_VALID, and TREE_VALID that the arena is a well-formed tree. -/
def ValidityOk (s : State) : Prop :=
  (s.tableValid = true → s.treeValid = true) ∧ (s.treeValid = true → treeCheck s.node = none)

/-- R144: code bits at LEN and above are 0. -/
def TableTailOk (s : State) : Prop :=
  ∀ (x : Byte) (j : Nat), lenAt s.len x ≤ j → codeBit (codeAt s.code x) j = false

/-- Inside the OutPut of a full write byte (R160). -/
def inFlush (s : State) : Prop :=
  ∃ w d, s.engine = .run w (.outPut (.byte d) .bitWritten) ∨
    s.engine = .run w (.outPut (.byte d) .padBit) ∨
    ∃ x j, s.engine = .run w (.outPut (.byte d) (.codeBit x j))

/-- R36: the bits of WBUF below those held are 0, but for the full byte a flush offers. -/
def WriteCursorOk (s : State) : Prop :=
  inFlush s ∨ ∀ j, s.wcnt.toNat ≤ j → s.wbuf.getMsbD j = false

/-- What ENCODE's offered token and what follows it say of the state (R41, R160, R180 to R183). -/
def EncodeOutOk (s : State) (t : OutToken) : AfterOut → Prop
  | .codeBit x j => s.wcnt = 7#3 ∧ t = .byte s.wbuf ∧ j < lenAt s.len x
  | .padBit => s.wcnt = 7#3 ∧ t = .byte s.wbuf
  | .ended => s.wcnt = 0#3 ∧ t = .endStream
  | .aborted e info =>
    t = .abort ∧
      (e = .truncatedStream ∨ (e = .unalignedWriteClose ∧ s.wcnt ≠ 0#3 ∧ info = s.wcnt.setWidth 32))
  | .bitWritten => False
  | .symbol => False

/-- What DECODE's offered token and what follows it say of the state (R40, R161, R200 to R203). -/
def DecodeOutOk (s : State) (t : OutToken) : AfterOut → Prop
  | .symbol => ∃ n, nodeAt s.node s.dstate = some n ∧ n.internal = false ∧ t = .byte n.symbol
  | .ended => s.rcnt = 0#3 ∧ s.dstate = Config.root ∧ t = .endStream
  | .aborted e _ => s.rcnt = 0#3 ∧ t = .abort ∧ e = .truncatedStream
  | .bitWritten => False
  | .codeBit _ _ => False
  | .padBit => False

/-- What WCLOSE's offered token and what follows it say of the state (R165). -/
def WcloseOutOk (s : State) (t : OutToken) : AfterOut → Prop
  | .ended => s.wcnt = 0#3 ∧ t = .endStream
  | .aborted e info => s.wcnt ≠ 0#3 ∧ t = .abort ∧ e = .unalignedWriteClose ∧ info = s.wcnt.setWidth 32
  | .bitWritten => False
  | .codeBit _ _ => False
  | .padBit => False
  | .symbol => False

/-- A running command stands inside InTake (R71, R161, R180, R200). -/
def InTakeOk (s : State) : Instr → Prop
  | .rbit => s.rcnt = 0#3
  | .encode => s.tableValid = true
  | .decode => s.treeValid = true ∧ s.rcnt = 0#3 ∧ ∃ n, nodeAt s.node s.dstate = some n ∧ n.internal = true
  | .nop => False
  | .build => False
  | .check => False
  | .extract => False
  | .wbit _ => False
  | .wclose => False
  | .clear => False

/-- A running command stands inside OutPut (R72, R164, R165, R180, R200). -/
def OutPutOk (s : State) (t : OutToken) (k : AfterOut) : Instr → Prop
  | .wbit _ => k = .bitWritten ∧ s.wcnt = 7#3 ∧ t = .byte s.wbuf
  | .wclose => WcloseOutOk s t k
  | .encode => s.tableValid = true ∧ EncodeOutOk s t k
  | .decode => s.treeValid = true ∧ DecodeOutOk s t k
  | .nop => False
  | .build => False
  | .check => False
  | .extract => False
  | .rbit => False
  | .clear => False

/-- What a running command's phase says of the state (R37). -/
def PhaseOk (s : State) (i : Instr) : Phase → Prop
  | .start => True
  | .inTake => InTakeOk s i
  | .outPut t k => OutPutOk s t k i

/-- R37, R220: a running engine holds a legal word, DONE is 0, OP is its low opcode bits, only CLEAR runs while an
error is latched, and the phase is one of the command's own. -/
def EngineOk (s : State) : Prop :=
  ∀ w p, s.engine = .run w p →
    ∃ i, decode w = .ok i ∧ s.done = false ∧ s.op = w.extractLsb' 0 4 ∧ (s.err = true → i = .clear) ∧ PhaseOk s i p

/-- What every step keeps. -/
structure MachineInv (s : State) : Prop where
  errorLatch : ErrorLatchOk s
  /-- R250: DONE and ERR are never both 1. -/
  doneErr : ¬ (s.done = true ∧ s.err = true)
  validity : ValidityOk s
  tableTail : TableTailOk s
  writeCursor : WriteCursorOk s
  /-- R72: the OUT queue holds at most OUT_CAP tokens. -/
  queue : s.outq.length ≤ Config.outCap
  engine : EngineOk s

/-! ## Host reads and waits -/

/-- R65: a host read of `r` gives `v`; beside the record of reads nothing changes (log 12). -/
def ReadsAs (s : State) (r : Reg) (v : Word) : Prop :=
  move (.host (readReg r)) s = .next { s with reads := s.reads ++ [(offsetOf r, v)] }

/-- R65: a host read of `r` gives a value nothing constrains (log 6). -/
def ReadsOpen (s : State) (r : Reg) : Prop :=
  move (.host (readReg r)) s =
    .next { s with reads := s.reads ++ [(offsetOf r, Config.freeRead s.draws)], draws := s.draws + 1 }

/-- R71, R72, R74: the running command waits on a port: for a token that SOURCE has not offered, or for room in the OUT
queue. -/
def Starved (s : State) (i : Instr) : Prop :=
  (i = .encode ∨ i = .decode ∨ i = .rbit) ∧ Runs i .inTake s ∧ s.source = [] ∨
    ∃ t k, OutPutOk s t k i ∧ Runs i (.outPut t k) s ∧ ¬ hasRoom s

/-! ## What moves next -/

/-- The engine moves in this step and runs command `i` at phase `p` (log 1, log 2). -/
def EngineMoves (s : State) (i : Instr) (p : Phase) : Prop :=
  (s.agenda = [] ∨ ∃ rest, s.agenda = .engine :: rest) ∧ ∃ w, s.engine = .run w p ∧ decode w = .ok i

/-- The host access of this step, from the agenda or from the host's program (log 1, log 13). -/
def nextAccess (s : State) : Option HostAccess :=
  match s.agenda, s.program with
  | .host a :: _, _ => some a
  | .hostStmt :: _, st :: _ => stmtAccess st
  | _, _ => none

/-- The host writes register `r` in this step, with a 32-bit aligned access. -/
def HostWrites (s : State) (r : Reg) (v : Word) : Prop :=
  ∃ a, nextAccess s = some a ∧ a.wf = true ∧ a.kind = .write v ∧ regOf a.offset = some r

/-- A soft reset takes place in this step (R271). -/
def SoftResets (s : State) : Prop := ∃ v, HostWrites s .ctrl v ∧ v.getLsbD 0 = true

end Sys2Proof.Machine
end

