-- ==== Sys2Proof/Certificates/Slice0/Obligations.lean ====
section
/-! DEFINITION. Certificates/Slice0/Obligations.lean: the statements for the provers. Each docstring names the rule of
spec/ it formalises, or the sections it rests on and the model's own choices in it (log n). -/

open Sys2Proof Sys2Proof.Machine

/-! ## Encoding -/

/-- R92: the legal command words are exactly those of the table, and each stands for its own command. -/
def Obligations.DecoderAcceptsExactlyTheTable : Prop :=
  (∀ (v : Word) (i : Instr), decode v = .ok i ↔ v = encode i) ∧
  encode .nop = 0x00000000#32 ∧ encode .build = 0x00000001#32 ∧ encode .check = 0x00000002#32 ∧
  encode .extract = 0x00000003#32 ∧ encode .encode = 0x00000004#32 ∧ encode .decode = 0x00000005#32 ∧
  encode (.wbit false) = 0x00000006#32 ∧ encode (.wbit true) = 0x00000106#32 ∧ encode .wclose = 0x00000007#32 ∧
  encode .rbit = 0x00000008#32 ∧ encode .clear = 0x00000009#32

/-- R93: which words are illegal, and what an accepted illegal word does: the error latch and ERRINFO, after the DONE
that acceptance clears (R220), and nothing else. -/
def Obligations.IllegalWordsRaiseIllegalCommand : Prop :=
  ∀ (s : State) (v : Word),
    ((v.extractLsb' 9 23 ≠ 0#23 ∨ 0x0A ≤ (v.extractLsb' 0 8).toNat ∨
        (v.getLsbD 8 = true ∧ v.extractLsb' 0 8 ≠ 0x06#8)) ↔ ∃ r, decode v = .error r) ∧
    ((∃ r, decode v = .error r) → s.busy = false → s.err = false →
      move (.host (writeRegAccess .cmd v)) s =
        .next { s with done := false, errCode := 5#4, errInfo := v, err := true })

/-- Words written out from the encodings of 30_encoding.md R92, and words beside them that R93 refuses. -/
def Obligations.WrittenOutWordsDecode : Prop :=
  decodeTableWord 32 0x00000001 = some .build ∧ decodeTableWord 32 0x00000003 = some .extract ∧
  decodeTableWord 32 0x00000005 = some .decode ∧ decodeTableWord 32 0x00000006 = some (.wbit false) ∧
  decodeTableWord 32 0x00000106 = some (.wbit true) ∧ decodeTableWord 32 0x00000009 = some .clear ∧
  decodeTableWord 32 0x0000000A = none ∧ decodeTableWord 32 0x00000107 = none ∧
  decodeTableWord 32 0x00000206 = none ∧ decodeTableWord 32 0x80000000 = none

/-! ## The register window -/

/-- R62: the register map, row by row. -/
def Obligations.RegisterMapRows : Prop :=
  regOf 0x0000#15 = some .id ∧ regOf 0x0004#15 = some .ctrl ∧ regOf 0x0008#15 = some .status ∧
  regOf 0x000C#15 = some .cmd ∧ regOf 0x0010#15 = some .err ∧ regOf 0x0014#15 = some .errInfo ∧
  regOf 0x0018#15 = some .result ∧ regOf 0x001C#15 = some .irqEn ∧ regOf 0x0020#15 = some .cursor ∧
  (∀ a : Offset, 0x0024 ≤ a.toNat → a.toNat < 0x0400 → regOf a = none) ∧
  (∀ x : Byte, regOf (BitVec.ofNat 15 (0x0400 + 4 * x.toNat)) = some (.weight x)) ∧
  (∀ i : Fin 511, regOf (BitVec.ofNat 15 (0x0800 + 4 * i.val)) = some (.node i)) ∧
  regOf 0x0FFC#15 = none ∧
  (∀ i : Fin 511, regOf (BitVec.ofNat 15 (0x1000 + 4 * i.val)) = some (.nodeWLo i)) ∧
  regOf 0x17FC#15 = none ∧
  (∀ i : Fin 511, regOf (BitVec.ofNat 15 (0x1800 + 4 * i.val)) = some (.nodeWHi i)) ∧
  regOf 0x1FFC#15 = none ∧
  (∀ x : Byte, regOf (BitVec.ofNat 15 (0x2000 + 4 * x.toNat)) = some (.codeLen x)) ∧
  (∀ a : Offset, 0x2400 ≤ a.toNat → a.toNat < 0x4000 → regOf a = none) ∧
  (∀ (x : Byte) (k : Fin 8), regOf (BitVec.ofNat 15 (0x4000 + 32 * x.toNat + 4 * k.val)) = some (.codeBits x k)) ∧
  (∀ a : Offset, 0x6000 ≤ a.toNat → regOf a = none)

/-- 20_memory.md R62: an aligned offset names a register exactly when it is that register's offset. -/
def Obligations.RegisterOffsetsAreInverse : Prop :=
  ∀ (a : Offset) (r : Reg), a.toNat % 4 = 0 → (regOf a = some r ↔ a = offsetOf r)

/-- R61: an access of another width or at an unaligned offset is refused; every other access is carried out. -/
def Obligations.AccessesOutsideTheContractAreRefused : Prop :=
  ∀ (s : State) (a : HostAccess),
    ((a.bytes ≠ 4 ∨ a.offset.toNat % 4 ≠ 0) → ∃ r, move (.host a) s = .refused r) ∧
    (a.bytes = 4 → a.offset.toNat % 4 = 0 → ∃ t, move (.host a) s = .next t)

/-- R63: reserved offsets read 0 (also while a command runs), writes to them and to read-only registers are ignored
and do not set DROPPED, and CTRL and CMD read 0. -/
def Obligations.ReservedAndReadOnlyOffsets : Prop :=
  ∀ (s : State) (a : Offset) (v : Word), a.toNat % 4 = 0 →
    (regOf a = none →
      move (.host { kind := .read, offset := a, bytes := 4 }) s = .next { s with reads := s.reads ++ [(a, 0#32)] } ∧
      move (.host { kind := .write v, offset := a, bytes := 4 }) s = .next s) ∧
    (∀ r, regOf a = some r →
      (r = .id ∨ r = .err ∨ r = .errInfo ∨ r = .result ∨ r = .cursor ∨ (∃ i, r = .nodeWLo i) ∨ (∃ i, r = .nodeWHi i) ∨
        (∃ x, r = .codeLen x) ∨ (∃ x k, r = .codeBits x k)) →
      move (.host { kind := .write v, offset := a, bytes := 4 }) s = .next s) ∧
    (∀ r, r = .ctrl ∨ r = .cmd →
      move (.host (readReg r)) s = .next { s with reads := s.reads ++ [(offsetOf r, 0#32)] })

/-- R65: what a host read of each register gives, in terms of the fields (10_state.md R21 to R34); the registers that are
open while BUSY = 1 give a free value then (log 6). Nothing but the host's record of reads and the draw counter changes. -/
def Obligations.HostReadReturnsCurrentValue : Prop :=
  ∀ s : State,
    ReadsAs s .id 0x48430001#32 ∧ ReadsAs s .ctrl 0#32 ∧ ReadsAs s .status (statusWord s) ∧ ReadsAs s .cmd 0#32 ∧
    ReadsAs s .err (s.errCode.setWidth 32) ∧ ReadsAs s .errInfo s.errInfo ∧
    ReadsAs s .irqEn (s.irqEn.setWidth 32) ∧
    (∀ x : Byte, ReadsAs s (.weight x) (s.weight[x.toNat]'x.isLt)) ∧
    (s.busy = false →
      ReadsAs s .result (s.result.setWidth 32) ∧ ReadsAs s .cursor (cursorWord s) ∧
      (∀ i : Fin 511, ReadsAs s (.node i) (s.node[i.val]'i.isLt).toWord ∧
        ReadsAs s (.nodeWLo i) ((s.nodew[i.val]'i.isLt).extractLsb' 0 32) ∧
        ReadsAs s (.nodeWHi i) (((s.nodew[i.val]'i.isLt).extractLsb' 32 8).setWidth 32)) ∧
      (∀ x : Byte, ReadsAs s (.codeLen x) ((s.len[x.toNat]'x.isLt).setWidth 32)) ∧
      (∀ (x : Byte) (k : Fin 8), ReadsAs s (.codeBits x k) (codeWord (s.code[x.toNat]'x.isLt) k))) ∧
    (s.busy = true →
      ReadsOpen s .result ∧ ReadsOpen s .cursor ∧
      (∀ i : Fin 511, ReadsOpen s (.node i) ∧ ReadsOpen s (.nodeWLo i) ∧ ReadsOpen s (.nodeWHi i)) ∧
      (∀ x : Byte, ReadsOpen s (.codeLen x)) ∧ (∀ (x : Byte) (k : Fin 8), ReadsOpen s (.codeBits x k)))

/-- R64: what a host write does, branch by branch; `present` is the acceptance of R220, stated in CommandAcceptance, and
`softReset` the soft reset of R271, stated in SoftResetEndsEverything. -/
def Obligations.HostWriteEffects : Prop :=
  ∀ (s : State) (v : Word),
    move (.host (writeRegAccess .ctrl v)) s = .next (if v.getLsbD 0 = true then softReset s else s) ∧
    move (.host (writeRegAccess .status v)) s =
      .next { s with done := s.done && !v.getLsbD 1, dropped := s.dropped && !v.getLsbD 3 } ∧
    move (.host (writeRegAccess .irqEn v)) s = .next { s with irqEn := v.extractLsb' 0 2 } ∧
    move (.host (writeRegAccess .cmd v)) s = .next (present v s) ∧
    (∀ x : Byte,
      (s.busy = true → move (.host (writeRegAccess (.weight x) v)) s = .next { s with dropped := true }) ∧
      (s.busy = false → move (.host (writeRegAccess (.weight x) v)) s =
        .next { s with weight := s.weight.set x.toNat v x.isLt })) ∧
    (∀ i : Fin 511,
      (s.busy = true → move (.host (writeRegAccess (.node i) v)) s = .next { s with dropped := true }) ∧
      (s.busy = false → move (.host (writeRegAccess (.node i) v)) s =
        .next { s with node := s.node.set i.val (Node.ofWord v) i.isLt, treeValid := false, tableValid := false })) ∧
    (Node.ofWord v).toWord = v &&& 0x83FFFFFF#32 ∧
    (∀ a : Offset, a.toNat % 4 = 0 →
      (∀ r, regOf a = some r → r ≠ .ctrl ∧ r ≠ .status ∧ r ≠ .irqEn ∧ r ≠ .cmd ∧ (∀ x, r ≠ .weight x) ∧
        (∀ i, r ≠ .node i)) →
      move (.host { kind := .write v, offset := a, bytes := 4 }) s = .next s)

/-- R220: when a word written to CMD is dropped, raises IllegalCommand or is accepted, and what each does. -/
def Obligations.CommandAcceptance : Prop :=
  ∀ (s : State) (v : Word),
    (s.busy = true → move (.host (writeRegAccess .cmd v)) s = .next { s with dropped := true }) ∧
    (s.busy = false → s.err = true → v ≠ 0x00000009#32 →
      move (.host (writeRegAccess .cmd v)) s = .next { s with dropped := true }) ∧
    (s.busy = false → s.err = false ∨ v = 0x00000009#32 → illegal v = true →
      move (.host (writeRegAccess .cmd v)) s =
        .next { s with done := false, errCode := 5#4, errInfo := v, err := true }) ∧
    (s.busy = false → s.err = false ∨ v = 0x00000009#32 → illegal v = false →
      move (.host (writeRegAccess .cmd v)) s =
        .next { s with done := false, op := v.extractLsb' 0 4, engine := .run v .start })

/-! ## Views of the state -/

/-- 10_state.md R23: every field of STATUS, and the reserved bits. -/
def Obligations.StatusFields : Prop :=
  ∀ s : State,
    (statusWord s).getLsbD 0 = s.busy ∧ (statusWord s).getLsbD 1 = s.done ∧ (statusWord s).getLsbD 2 = s.err ∧
    (statusWord s).getLsbD 3 = s.dropped ∧ (statusWord s).getLsbD 4 = s.treeValid ∧
    (statusWord s).getLsbD 5 = s.tableValid ∧ (statusWord s).extractLsb' 6 2 = 0#2 ∧
    (statusWord s).extractLsb' 8 4 = s.op ∧ (statusWord s).extractLsb' 12 20 = 0#20 ∧
    (s.busy = true ↔ ∃ w p, s.engine = .run w p)

/-- 10_state.md R31: the fields of a node word, its reserved bits, and that nothing else is lost. -/
def Obligations.NodeWordFields : Prop :=
  (∀ v : Word, (Node.ofWord v).left = v.extractLsb' 0 9 ∧ (Node.ofWord v).right = v.extractLsb' 9 9 ∧
    (Node.ofWord v).symbol = v.extractLsb' 18 8 ∧ (Node.ofWord v).internal = v.getLsbD 31 ∧
    (Node.ofWord v).toWord = v &&& 0x83FFFFFF#32) ∧
  (∀ n : Node, Node.ofWord n.toWord = n) ∧
  (∀ x : Byte, (Node.leaf x).toWord = (x.setWidth 32 <<< 18) ||| 0x0003FFFF#32) ∧
  (∀ l r : NodeIx, (Node.inner l r).toWord = 0x80000000#32 ||| (r.setWidth 32 <<< 9) ||| l.setWidth 32)

/-- 10_state.md R34: bit `31 - t` of CODE_BITS[s][k] is code bit `32 * k + t`. -/
def Obligations.CodeWordBitOrder : Prop :=
  ∀ (c : Code) (k : Fin 8) (t : Nat), t < 32 → (codeWord c k).getLsbD (31 - t) = codeBit c (32 * k.val + t)

/-- R29: CURSOR is a read-only view of the cursors. -/
def Obligations.CursorView : Prop :=
  (∀ (s : State) (v : Word), (cursorWord s).extractLsb' 0 8 = s.wbuf ∧ (cursorWord s).extractLsb' 8 3 = s.wcnt ∧
    (cursorWord s).extractLsb' 11 5 = 0#5 ∧ (cursorWord s).extractLsb' 16 8 = s.rbuf ∧
    (cursorWord s).extractLsb' 24 3 = s.rcnt ∧ (cursorWord s).extractLsb' 27 5 = 0#5 ∧
    move (.host (writeRegAccess .cursor v)) s = .next s) ∧
  cursorWord State.reset = 0#32

/-- R42: the level of the interrupt output. -/
def Obligations.InterruptLevel : Prop :=
  ∀ s : State, irq s = true ↔
    (s.done = true ∧ s.irqEn.getLsbD 0 = true) ∨ (s.err = true ∧ s.irqEn.getLsbD 1 = true)

/-! ## Reset -/

/-- R47: the reset value of every register, of the engine and of IRQ. -/
def Obligations.ResetValues : Prop :=
  regValue .id State.reset = 0x48430001#32 ∧ regValue .ctrl State.reset = 0#32 ∧
  regValue .status State.reset = 0#32 ∧ regValue .err State.reset = 0#32 ∧ regValue .errInfo State.reset = 0#32 ∧
  regValue .result State.reset = 0#32 ∧ regValue .irqEn State.reset = 0#32 ∧ regValue .cursor State.reset = 0#32 ∧
  (∀ x, regValue (.weight x) State.reset = 0#32) ∧ (∀ i, regValue (.node i) State.reset = 0#32) ∧
  (∀ i, regValue (.nodeWLo i) State.reset = 0#32) ∧ (∀ i, regValue (.nodeWHi i) State.reset = 0#32) ∧
  (∀ x, regValue (.codeLen x) State.reset = 0#32) ∧ (∀ x k, regValue (.codeBits x k) State.reset = 0#32) ∧
  State.reset.wbuf = 0#8 ∧ State.reset.wcnt = 0#3 ∧ State.reset.rbuf = 0#8 ∧ State.reset.rcnt = 0#3 ∧
  State.reset.engine = .idle ∧ State.reset.dstate = 0#9 ∧ irq State.reset = false ∧
  treeCheck State.reset.node = some (0, .rootLeaf)

/-- 70_reset_and_hazards.md R273: the first CHECK, EXTRACT or DECODE after reset raises MalformedTree with ERRINFO
0x00010000, the first ENCODE NotReady. -/
def Obligations.FirstCommandsAfterReset : Prop :=
  (∀ i : Instr, i = .check ∨ i = .extract ∨ i = .decode →
    step (accept (encode i) State.reset) =
      .next { State.reset with
        op := (encode i).extractLsb' 0 4, errCode := 1#4, errInfo := 0x00010000#32, err := true }) ∧
  step (accept (encode .encode) State.reset) =
    .next { State.reset with op := 4#4, errCode := 6#4, errInfo := 0x00000004#32, err := true }

/-- 70_reset_and_hazards.md R271, R272: a write of 1 to CTRL.SRST puts every piece of state into its reset value, also
while a command runs; the token OutPut was offering is withdrawn, no IN token is taken, and tokens already transferred
stay. Nothing is said of ORPH, DEPTH and ACC, to which R47 gives no value (log 7). That the agenda, the host's program and
records and the draw counter stay is the model's choice (log 19). -/
def Obligations.SoftResetEndsEverything : Prop :=
  ∀ (s : State) (v : Word), v.getLsbD 0 = true →
    ∃ t, move (.host (writeRegAccess .ctrl v)) s = .next t ∧
      t = { State.reset with
        orph := t.orph, depth := t.depth, acc := t.acc
        outq := s.outq, source := s.source, sunk := s.sunk, agenda := s.agenda, reads := s.reads
        program := s.program, bindings := s.bindings, checks := s.checks, draws := s.draws }

/-! ## Steps, waits and errors -/

/-- 00_scope.md R10, 10_state.md R37: where the engine moves, a step is `exec` of the command its word decodes to,
with the event that named the engine used up (log 1, log 2). -/
def Obligations.StepRunsDecodedInstruction : Prop :=
  ∀ (s : State) (w : Word) (p : Phase) (i : Instr), s.engine = .run w p → decode w = .ok i →
    (s.agenda = [] → step s = exec i s) ∧
    (∀ rest, s.agenda = .engine :: rest → step s = exec i { s with agenda := rest })

/-- 20_memory.md R71, R72, R74 and 60_exceptions.md R260: a command that waits on a port changes nothing while it waits,
whichever primitive it stands at, and an idle engine changes nothing (log 11; that the engine moves when the agenda is
empty is log 2). -/
def Obligations.WaitingChangesNothing : Prop :=
  ∀ s : State,
    (∀ i : Instr, i = .encode ∨ i = .decode ∨ i = .rbit → Runs i .inTake s → s.source = [] → exec i s = .next s) ∧
    (∀ b d, Runs (.wbit b) (.outPut (.byte d) .bitWritten) s → ¬ hasRoom s → exec (.wbit b) s = .next s) ∧
    (∀ d x j, Runs .encode (.outPut (.byte d) (.codeBit x j)) s → ¬ hasRoom s → exec .encode s = .next s) ∧
    (∀ d, Runs .encode (.outPut (.byte d) .padBit) s → ¬ hasRoom s → exec .encode s = .next s) ∧
    (∀ d, Runs .decode (.outPut (.byte d) .symbol) s → ¬ hasRoom s → exec .decode s = .next s) ∧
    (∀ i : Instr, i = .encode ∨ i = .decode ∨ i = .wclose →
      (Runs i (.outPut .endStream .ended) s ∨ ∃ e info, Runs i (.outPut .abort (.aborted e info)) s) → ¬ hasRoom s →
      exec i s = .next s) ∧
    (s.engine = .idle → s.agenda = [] → step s = .next s)

/-- 60_exceptions.md R242, R243: a raise that aborts a stream holds BUSY until OUT takes ABORT, and then latches the
error in one step, leaving DONE and OP. -/
def Obligations.AbortIsEmittedBeforeTheLatch : Prop :=
  ∀ (s : State) (i : Instr) (e : ErrorKind) (info : Word), i = .encode ∨ i = .decode ∨ i = .wclose →
    (e = .truncatedStream ∨ e = .unalignedWriteClose →
      raiseError (some i) e info s = { s with engine := .run (encode i) (.outPut .abort (.aborted e info)) }) ∧
    (Runs i (.outPut .abort (.aborted e info)) s → hasRoom s →
      exec i s = .next { s with
        outq := s.outq ++ [.abort], errCode := e.code, errInfo := info, err := true, engine := .idle }) ∧
    (Runs i (.outPut .abort (.aborted e info)) s → ¬ hasRoom s → exec i s = .next s)

/-! ## Control commands -/

/-- R224: `complete()`, which is all NOP does (R221): BUSY 0, DONE 1, engine IDLE, everything else kept. -/
def Obligations.NopCompletes : Prop :=
  ∀ s : State, exec .nop s = .next { s with engine := .idle, done := true }

/-- R222: CLEAR, and that it alone is taken while an error is latched. -/
def Obligations.ClearGivesFreshState : Prop :=
  ∀ s : State,
    exec .clear s = .next { s with
      err := false, errCode := 0#4, errInfo := 0#32, wbuf := 0#8, wcnt := 0#3, rbuf := 0#8, rcnt := 0#3
      result := 0#2, dstate := 0#9, engine := .idle, done := true } ∧
    (s.busy = false → move (.host (commandAccess .clear)) s =
      .next { s with done := false, op := 9#4, engine := .run 0x00000009#32 .start }) ∧
    (∀ v : Word, s.busy = false → s.err = true → v ≠ 0x00000009#32 →
      move (.host (writeRegAccess .cmd v)) s = .next { s with dropped := true })

/-! ## BUILD -/

/-- 40_tree_builder.md R110: BUILD completes in every state, sets TREE_VALID, clears TABLE_VALID, and changes only the
arena, the node weights and ORPH (a free value afterwards, log 7), all of it from WEIGHT. -/
def Obligations.BuildCompletes : Prop :=
  ∀ s : State, ∃ t, exec .build s = .next t ∧
    t.node = (buildTree s.weight s.builder).node ∧ t.nodew = (buildTree s.weight s.builder).nodew ∧
    t = { s with
      engine := .idle, done := true, treeValid := true, tableValid := false
      node := t.node, nodew := t.nodew, orph := t.orph, draws := t.draws }

/-- R112: SelectTwo takes the least position of the least weight and the least position of the least weight among the
rest, the first as LEFT and the second as RIGHT; R111: the two leave ORPH, the others keep their order, the new node
is appended. -/
def Obligations.MergeJoinsTheTwoLeast : Prop :=
  ∀ (b : Builder) (t : Nat), 2 ≤ b.orph.length →
    ∃ (p1 p2 : Nat) (h1 : p1 < b.orph.length) (h2 : p2 < b.orph.length), p1 ≠ p2 ∧
      (∀ q (hq : q < b.orph.length), weightAt b.nodew b.orph[p1] ≤ weightAt b.nodew b.orph[q] ∧
        (q < p1 → weightAt b.nodew b.orph[p1] < weightAt b.nodew b.orph[q])) ∧
      (∀ q (hq : q < b.orph.length), q ≠ p1 → weightAt b.nodew b.orph[p2] ≤ weightAt b.nodew b.orph[q] ∧
        (q < p2 → weightAt b.nodew b.orph[p2] < weightAt b.nodew b.orph[q])) ∧
      merge t b = {
        node := b.node.setIfInBounds t { left := b.orph[p1], right := b.orph[p2], symbol := 0#8, internal := true }
        nodew := b.nodew.setIfInBounds t (weightAt b.nodew b.orph[p1] + weightAt b.nodew b.orph[p2])
        orph := ((b.orph.zipIdx.filter (fun x => x.2 != p1 && x.2 != p2)).map Prod.fst) ++ [BitVec.ofNat 9 t] }

/-- R115: BUILD's output is a well-formed tree with the four properties, from any weights and whatever the arena held
before. -/
def Obligations.BuiltTreeIsWellFormed : Prop :=
  ∀ (w : Vector Word 256) (b : Builder),
    let a := (buildTree w b).node
    let nw := (buildTree w b).nodew
    WellFormedTree a ∧
    (∀ i (h : i < 511), (a[i].internal = true ↔ i < 255)) ∧
    (∀ x : Byte, nodeAt a (leafIx x) = some (Node.leaf x)) ∧
    (∀ i (h : i < 255) e, i < (a[i].child e).toNat ∧ (a[i].child e).toNat ≤ 510) ∧
    (∀ c, 1 ≤ c → c ≤ 510 → ∃! p : Fin 255 × Bool, (a[p.1.val].child p.2).toNat = c) ∧
    (∀ i (h : i < 255) e, (a[i].child e).toNat ≠ 0) ∧
    (∀ x : Byte, ∃! l : List Bool, walkTo a Config.root l = some (leafIx x)) ∧
    nw[0].toNat = (w.toList.map BitVec.toNat).sum ∧
    (∀ i (h : i < 255), nw[i].toNat = (weightAt nw a[i].left).toNat + (weightAt nw a[i].right).toNat)

/-- 40_tree_builder.md R110, 44_decoder.md R207: BUILD overwrites every word of the arena and of the node weights, so
its result depends on the weights alone. -/
def Obligations.BuildDependsOnWeightsAlone : Prop :=
  ∀ (w : Vector Word 256) (b b' : Builder), buildTree w b = buildTree w b'

/-- 40_tree_builder.md R117: only the ratios of the weights matter: scaling all of them by one positive factor gives
the same tree. -/
def Obligations.BuildIgnoresScale : Prop :=
  ∀ (w w' : Vector Word 256) (b : Builder) (c : Nat), 1 ≤ c →
    (∀ i (h : i < 256), w'[i].toNat = c * w[i].toNat) → (buildTree w' b).node = (buildTree w b).node

/-! ## CHECK and the tree check -/

/-- R121 with the conditions of R120: CHECK on a well-formed tree sets TREE_VALID and completes; otherwise it reports
the lowest failing node and the first of T1, T2, T3 that fails there. Nothing else changes. -/
def Obligations.CheckDecidesWellFormedness : Prop :=
  ∀ s : State,
    (WellFormedTree s.node → exec .check s = .next { s with treeValid := true, engine := .idle, done := true }) ∧
    (∀ i (h : i < 511) c, firstCond i s.node[i] c →
      (∀ j (hj : j < i) c', ¬ failsCond j s.node[j] c') →
      exec .check s = .next { s with
        treeValid := false, errCode := 1#4, errInfo := BitVec.ofNat 32 (65536 * (match c with | .rootLeaf => 1 | .nilChild => 2 | .childNotAbove => 3) + i), err := true
        engine := .idle }) ∧
    (¬ WellFormedTree s.node → ∃ i, ∃ h : i < 511, ∃ c, firstCond i s.node[i] c ∧
      ∀ j (hj : j < i) c', ¬ failsCond j s.node[j] c')

/-- R122: on a passing arena indices rise along every walk, every walk from the root reaches a leaf within 510 steps,
and an internal node's children exist. -/
def Obligations.WalksOfAPassingTreeEnd : Prop :=
  ∀ a : Vector Node 511, treeCheck a = none →
    (∀ i l j, walkTo a i l = some j → i.toNat + l.length ≤ j.toNat) ∧
    (∀ l : List Bool, l.length = 510 → ∃ k, k ≤ 510 ∧ ∃ j n, walkTo a Config.root (l.take k) = some j ∧
      nodeAt a j = some n ∧ n.internal = false) ∧
    (∀ i n e, nodeAt a i = some n → n.internal = true → 1 ≤ (n.child e).toNat ∧ (n.child e).toNat ≤ 510)

/-! ## EXTRACT -/

/-- 41_code_extractor.md R140 to R145: on a passing arena with no internal node at depth 255, EXTRACT completes; each
symbol's entry is the path of its highest-index leaf, along highest-index parents, and is empty where the symbol is on
no leaf. Only the table, the flags and the scratch (free afterwards, log 7) change. -/
def Obligations.ExtractTableFollowsPaths : Prop :=
  ∀ s : State, treeCheck s.node = none →
    (∀ i (h : i < 511), s.node[i].internal = true → (nodePath s.node i).length ≠ 255) →
    ∃ t, exec .extract s = .next t ∧
      (∀ x : Byte, TableHolds t.len t.code x (((lastLeaf s.node x).map (nodePath s.node)).getD [])) ∧
      t = { s with
        engine := .idle, done := true, treeValid := true, tableValid := true
        len := t.len, code := t.code, depth := t.depth, acc := t.acc, draws := t.draws }

/-- R146: an internal node at depth 255 makes EXTRACT clear the table and raise CodeLengthOverflow with the lowest such
node; TREE_VALID stays 1. -/
def Obligations.ExtractOverflowClearsTable : Prop :=
  ∀ s : State, treeCheck s.node = none →
    ∀ i (h : i < 511), s.node[i].internal = true → (nodePath s.node i).length = 255 →
      (∀ j (hj : j < i), s.node[j].internal = true → (nodePath s.node j).length ≠ 255) →
      ∃ t, exec .extract s = .next t ∧
        t = { s with
          len := Vector.replicate 256 0#8, code := Vector.replicate 256 0#256, treeValid := true, tableValid := false
          errCode := 2#4, errInfo := BitVec.ofNat 32 i, err := true, engine := .idle
          depth := t.depth, acc := t.acc, draws := t.draws }

/-- 41_code_extractor.md R140, 44_decoder.md R200: EXTRACT and DECODE run the tree check first: on a failing arena each
raises MalformedTree before anything else is written and before any port is used. -/
def Obligations.FailingArenaStopsExtractAndDecode : Prop :=
  ∀ (s : State) (i : Nat) (c : TreeCond), treeCheck s.node = some (i, c) →
    exec .extract s = .next { s with
      treeValid := false, errCode := 1#4, errInfo := BitVec.ofNat 32 (65536 * (match c with | .rootLeaf => 1 | .nilChild => 2 | .childNotAbove => 3) + i), err := true
      engine := .idle } ∧
    (Runs .decode .start s → exec .decode s = .next { s with
      treeValid := false, errCode := 1#4, errInfo := BitVec.ofNat 32 (65536 * (match c with | .rootLeaf => 1 | .nilChild => 2 | .childNotAbove => 3) + i), err := true
      engine := .idle })

/-- 41_code_extractor.md R147, items 1 to 3: after BUILD and EXTRACT every symbol's code is the path from the root to
its leaf, of 1 to 255 bits, and EXTRACT does not overflow. -/
def Obligations.BuiltTableIsTreePaths : Prop :=
  ∀ (w : Vector Word 256) (b : Builder), ∃ x, extractTable (buildTree w b).node = .ok x ∧
    ∀ sym : Byte, 1 ≤ lenAt x.len sym ∧ lenAt x.len sym ≤ 255 ∧
      walkTo (buildTree w b).node Config.root (codeString x.len x.code sym) = some (leafIx sym)

/-- 41_code_extractor.md R147, items 4 to 6: after BUILD and EXTRACT the codes are prefix-free, the tree is full, and
some code has 8 bits or more. -/
def Obligations.BuiltTableIsPrefixFree : Prop :=
  ∀ (w : Vector Word 256) (b : Builder), ∃ x, extractTable (buildTree w b).node = .ok x ∧
    (∀ y z : Byte, y ≠ z → ¬ codeString x.len x.code y <+: codeString x.len x.code z) ∧
    ((List.range 256).map (fun n => 2 ^ (255 - lenAt x.len (BitVec.ofNat 8 n)))).sum = 2 ^ 255 ∧
    (∃ y : Byte, 8 ≤ lenAt x.len y)

/-! ## WBIT, WCLOSE, RBIT -/

/-- R164, with PutBit (R160): a WBIT completes at once, or, with the eighth bit, when OUT takes the byte. -/
def Obligations.WbitAppendsOneBit : Prop :=
  ∀ (s : State) (b : Bool),
    (Runs (.wbit b) .start s → s.wcnt ≠ 7#3 → exec (.wbit b) s = .next { s with
      wbuf := setMsb s.wbuf s.wcnt.toNat b, wcnt := s.wcnt + 1#3, engine := .idle, done := true }) ∧
    (Runs (.wbit b) .start s → s.wcnt = 7#3 → exec (.wbit b) s = .next { s with
      wbuf := setMsb s.wbuf 7 b
      engine := .run (encode (.wbit b)) (.outPut (.byte (setMsb s.wbuf 7 b)) .bitWritten) }) ∧
    (∀ d, Runs (.wbit b) (.outPut (.byte d) .bitWritten) s → hasRoom s → exec (.wbit b) s = .next { s with
      outq := s.outq ++ [.byte d], wbuf := 0#8, wcnt := 0#3, engine := .idle, done := true }) ∧
    (∀ d, Runs (.wbit b) (.outPut (.byte d) .bitWritten) s → ¬ hasRoom s → exec (.wbit b) s = .next s) ∧
    (∀ j, j < 8 → (setMsb s.wbuf s.wcnt.toNat b).getLsbD j =
      if j = 7 - s.wcnt.toNat then b else s.wbuf.getLsbD j)

/-- R165: WCLOSE emits END at a byte boundary, and otherwise raises UnalignedWriteClose with the number of bits held
and emits ABORT; WBUF and WCNT stay. -/
def Obligations.WcloseNeedsByteBoundary : Prop :=
  ∀ s : State,
    (Runs .wclose .start s → s.wcnt = 0#3 →
      exec .wclose s = .next { s with engine := .run 0x00000007#32 (.outPut .endStream .ended) }) ∧
    (Runs .wclose (.outPut .endStream .ended) s → hasRoom s →
      exec .wclose s = .next { s with outq := s.outq ++ [.endStream], engine := .idle, done := true }) ∧
    (Runs .wclose .start s → s.wcnt ≠ 0#3 → exec .wclose s = .next { s with
      engine := .run 0x00000007#32 (.outPut .abort (.aborted .unalignedWriteClose (s.wcnt.setWidth 32))) }) ∧
    (∀ info, Runs .wclose (.outPut .abort (.aborted .unalignedWriteClose info)) s → hasRoom s →
      exec .wclose s = .next { s with
        outq := s.outq ++ [.abort], errCode := 4#4, errInfo := info, err := true, engine := .idle }) ∧
    (∀ t k, (t = .endStream ∧ k = .ended) ∨ (∃ info, t = .abort ∧ k = .aborted .unalignedWriteClose info) →
      Runs .wclose (.outPut t k) s → ¬ hasRoom s → exec .wclose s = .next s)

/-- R166, with GetBit (R161): RBIT's result on unread bits, on each kind of token, and its wait. -/
def Obligations.RbitReadsOneBit : Prop :=
  ∀ s : State,
    (Runs .rbit .start s → s.rcnt ≠ 0#3 → exec .rbit s = .next { s with
      result := if s.rbuf.getLsbD (s.rcnt.toNat - 1) = true then 1#2 else 0#2
      rcnt := s.rcnt - 1#3, engine := .idle, done := true }) ∧
    (Runs .rbit .start s → s.rcnt = 0#3 → exec .rbit s = .next { s with engine := .run 0x00000008#32 .inTake }) ∧
    (∀ d rest, Runs .rbit .inTake s → s.source = .byte d :: rest → exec .rbit s = .next { s with
      source := rest, rbuf := d, rcnt := 7#3, result := if d.getLsbD 7 = true then 1#2 else 0#2
      engine := .idle, done := true }) ∧
    (∀ rest, Runs .rbit .inTake s → s.source = .endStream :: rest → exec .rbit s = .next { s with
      source := rest, result := 2#2, engine := .idle, done := true }) ∧
    (∀ rest, Runs .rbit .inTake s → s.source = .fail :: rest → exec .rbit s = .next { s with
      source := rest, errCode := 3#4, errInfo := 0x00000208#32, err := true, engine := .idle }) ∧
    (∀ rest, Runs .rbit .inTake s → s.source = .rsvd :: rest → exec .rbit s = .next { s with
      source := rest, errCode := 3#4, errInfo := 0x00000308#32, err := true, engine := .idle }) ∧
    (Runs .rbit .inTake s → s.source = [] → exec .rbit s = .next s)

/-! ## ENCODE -/

/-- 43_encoder.md R180, R184: the steps of ENCODE that take or emit no code bit. -/
def Obligations.EncodeStartsAndEnds : Prop :=
  ∀ s : State,
    (Runs .encode .start s → s.tableValid = false → exec .encode s = .next { s with
      errCode := 6#4, errInfo := 0x00000004#32, err := true, engine := .idle }) ∧
    (Runs .encode .start s → s.tableValid = true →
      exec .encode s = .next { s with engine := .run 0x00000004#32 .inTake }) ∧
    (∀ rest, Runs .encode .inTake s → s.source = .endStream :: rest → s.wcnt = 0#3 →
      exec .encode s = .next { s with
        source := rest, engine := .run 0x00000004#32 (.outPut .endStream .ended) }) ∧
    (Runs .encode (.outPut .endStream .ended) s → hasRoom s →
      exec .encode s = .next { s with outq := s.outq ++ [.endStream], engine := .idle, done := true }) ∧
    (∀ rest, Runs .encode .inTake s → s.source = .fail :: rest → exec .encode s = .next { s with
      source := rest
      engine := .run 0x00000004#32 (.outPut .abort (.aborted .truncatedStream 0x00000204#32)) }) ∧
    (∀ rest, Runs .encode .inTake s → s.source = .rsvd :: rest → exec .encode s = .next { s with
      source := rest
      engine := .run 0x00000004#32 (.outPut .abort (.aborted .truncatedStream 0x00000304#32)) })

/-- 43_encoder.md R180, 42_bit_stream.md R160: one BYTE token: its code goes to the write cursor, first code bit first;
where the code fills the byte, ENCODE offers the full byte and stands at the code bit that filled it. -/
def Obligations.EncodeTakesOneByte : Prop :=
  ∀ (s : State) (d : Byte) (rest : List InToken), Runs .encode .inTake s → s.source = .byte d :: rest →
    let bits := heldBits s ++ codeString s.len s.code d
    (bits.length < 8 → ∃ t, exec .encode s = .next t ∧ heldBits t = bits ∧
      t = { s with source := rest, wbuf := t.wbuf, wcnt := t.wcnt }) ∧
    (8 ≤ bits.length → exec .encode s = .next { s with
      source := rest, wbuf := bitsByte (bits.take 8), wcnt := 7#3
      engine := .run 0x00000004#32 (.outPut (.byte (bitsByte (bits.take 8))) (.codeBit d (7 - s.wcnt.toNat))) })

/-- 43_encoder.md R181, R187, with the padding of R182, whose symbol is the least one long enough: ENCODE, fed bytes and
END and with a SINK that keeps taking tokens (the schedule `pump`, the model's choice: log 1), emits the bits held, the
codes of the input in order and the padding, cut into bytes MSB-first, then END, and completes. -/
def Obligations.EncodeEmitsThePackedStream : Prop :=
  ∀ (s : State) (input : List Byte) (rest : List InToken),
    let bits := heldBits s ++ input.flatMap (codeString s.len s.code)
    Runs .encode .start s → s.tableValid = true → WriteCursorOk s → s.outq.length ≤ Config.outCap →
    s.source = input.map .byte ++ .endStream :: rest →
    (missingBits bits = 0 ∨ padExists s.len (missingBits bits)) →
    ∃ pad n t, IsPadding s.len s.code (missingBits bits) pad ∧
      (packBytes (bits ++ pad)).length = (bits.length + 7) / 8 ∧
      runSteps (2 * n) { s with agenda := pump n } = .next t ∧
      emitted t = emitted s ++ (packBytes (bits ++ pad)).map .byte ++ [.endStream] ∧
      t = { s with
        agenda := [], engine := .idle, done := true, wbuf := 0#8, wcnt := 0#3, source := rest
        sunk := t.sunk, outq := t.outq }

/-- 43_encoder.md R183: where no symbol's code is longer than the bits missing, ENCODE, with a SINK that keeps taking
tokens (the schedule `pump`, the model's choice: log 1), emits the whole bytes and ABORT and raises
UnalignedWriteClose with the number of bits held, which stay in WBUF. -/
def Obligations.EncodeWithoutPaddingAborts : Prop :=
  ∀ (s : State) (input : List Byte) (rest : List InToken),
    let bits := heldBits s ++ input.flatMap (codeString s.len s.code)
    Runs .encode .start s → s.tableValid = true → WriteCursorOk s → s.outq.length ≤ Config.outCap →
    s.source = input.map .byte ++ .endStream :: rest →
    missingBits bits ≠ 0 → ¬ padExists s.len (missingBits bits) →
    ∃ n t, runSteps (2 * n) { s with agenda := pump n } = .next t ∧
      emitted t = emitted s ++ (packBytes bits).map .byte ++ [.abort] ∧
      heldBits t = bits.drop (8 * (bits.length / 8)) ∧
      t = { s with
        agenda := [], engine := .idle, errCode := 4#4, errInfo := BitVec.ofNat 32 (bits.length % 8), err := true
        wbuf := t.wbuf, wcnt := t.wcnt, source := rest, sunk := t.sunk, outq := t.outq }

/-! ## DECODE -/

/-- 44_decoder.md R200, R203, R204, R205: the steps of DECODE that read no bit. -/
def Obligations.DecodeStartsAndEnds : Prop :=
  ∀ s : State,
    (Runs .decode .start s → treeCheck s.node = none → s.rcnt = 0#3 → exec .decode s = .next { s with
      treeValid := true, dstate := 0#9, engine := .run 0x00000005#32 .inTake }) ∧
    (∀ rest, Runs .decode .inTake s → s.source = .endStream :: rest → exec .decode s = .next { s with
      source := rest, dstate := 0#9, engine := .run 0x00000005#32 (.outPut .endStream .ended) }) ∧
    (Runs .decode (.outPut .endStream .ended) s → hasRoom s →
      exec .decode s = .next { s with outq := s.outq ++ [.endStream], engine := .idle, done := true }) ∧
    (∀ rest, Runs .decode .inTake s → s.source = .fail :: rest → exec .decode s = .next { s with
      source := rest
      engine := .run 0x00000005#32 (.outPut .abort (.aborted .truncatedStream 0x00000205#32)) }) ∧
    (∀ rest, Runs .decode .inTake s → s.source = .rsvd :: rest → exec .decode s = .next { s with
      source := rest
      engine := .run 0x00000005#32 (.outPut .abort (.aborted .truncatedStream 0x00000305#32)) })

/-- 44_decoder.md R200 to R202, 42_bit_stream.md R161: one BYTE token: the walk takes its bits, bit 7 first, up to the
first leaf, whose symbol DECODE offers; with no leaf on the way it takes all eight and waits for the next token. -/
def Obligations.DecodeTakesOneByte : Prop :=
  ∀ (s : State) (d : Byte) (rest : List InToken), Runs .decode .inTake s → s.source = .byte d :: rest →
    (∀ k j n, k < 8 → walkTo s.node s.dstate ((byteBits d).take (k + 1)) = some j → nodeAt s.node j = some n →
      n.internal = false →
      exec .decode s = .next { s with
        source := rest, rbuf := d, rcnt := BitVec.ofNat 3 (7 - k), dstate := j
        engine := .run 0x00000005#32 (.outPut (.byte n.symbol) .symbol) }) ∧
    (∀ j n, walkTo s.node s.dstate (byteBits d) = some j → nodeAt s.node j = some n → n.internal = true →
      exec .decode s = .next { s with source := rest, rbuf := d, rcnt := 0#3, dstate := j })

/-- 44_decoder.md R201 to R203, R208: DECODE, fed bytes and END and with a SINK that keeps taking
tokens (the schedule `pump`, the model's choice: log 1), emits the
symbols of the leaves the walk reaches, in order, then END, discards the walk and completes, on every arena that
passes the check. -/
def Obligations.DecodeEmitsTheWalkedSymbols : Prop :=
  ∀ (s : State) (packed : List Byte) (rest : List InToken),
    Runs .decode .start s → treeCheck s.node = none → s.outq.length ≤ Config.outCap →
    s.source = packed.map .byte ++ .endStream :: rest →
    ∃ n t, runSteps (2 * n) { s with agenda := pump n } = .next t ∧
      emitted t = emitted s ++
        (walkSymbols s.node Config.root (unreadBits s ++ packed.flatMap byteBits)).map .byte ++ [.endStream] ∧
      t = { s with
        agenda := [], engine := .idle, done := true, treeValid := true, dstate := 0#9, rcnt := 0#3
        rbuf := packed.getLast?.getD s.rbuf, source := rest, sunk := t.sunk, outq := t.outq }

/-- 44_decoder.md R206: the round-trip law: with an arena from BUILD and a table from EXTRACT after it, ENCODE completes
on every input, and DECODE on the bytes it emitted completes and emits the input. In both runs SINK keeps taking tokens
(the schedule `pump`, the model's choice: log 1). -/
def Obligations.RoundTripLaw : Prop :=
  ∀ (w : Vector Word 256) (b : Builder), ∃ x : Extractor, extractTable (buildTree w b).node = .ok x ∧
    ∀ (s : State) (input : List Byte) (rest : List InToken),
      s.len = x.len → s.code = x.code →
      Runs .encode .start s → s.tableValid = true → s.wcnt = 0#3 → s.wbuf = 0#8 → s.outq.length ≤ Config.outCap →
      s.source = input.map .byte ++ .endStream :: rest →
      ∃ (out : List Byte) (n : Nat) (t : State), runSteps (2 * n) { s with agenda := pump n } = .next t ∧
        t.engine = .idle ∧ t.done = true ∧ emitted t = emitted s ++ out.map .byte ++ [.endStream] ∧
        ∀ (u : State) (rest' : List InToken),
          Runs .decode .start u → u.node = (buildTree w b).node → u.rcnt = 0#3 → u.outq.length ≤ Config.outCap →
          u.source = out.map .byte ++ .endStream :: rest' →
          ∃ (m : Nat) (v : State), runSteps (2 * m) { u with agenda := pump m } = .next v ∧
            v.engine = .idle ∧ v.done = true ∧ emitted v = emitted u ++ input.map .byte ++ [.endStream]

/-! ## The whole machine -/

/-- The reset state meets the invariant (10_state.md R47). -/
def Obligations.InvariantHoldsAtReset : Prop := MachineInv State.reset

/-- 10_state.md R25, R26, R36, R37, R44, 41_code_extractor.md R144, 60_exceptions.md R250: every step of every agent,
from any state that meets the invariant, keeps it. -/
def Obligations.EveryStepKeepsTheInvariant : Prop :=
  ∀ s t : State, MachineInv s → step s = .next t → MachineInv t

/-- 60_exceptions.md R242 and 20_memory.md R61: from a state that meets the invariant no step faults, and a step is
refused only for a host access outside the contract. -/
def Obligations.InvariantRulesOutFaults : Prop :=
  ∀ s : State, MachineInv s →
    (∀ f, step s ≠ .fault f) ∧
    (∀ r, step s = .refused r → ∃ a rest, s.agenda = .host a :: rest ∧ a.wf = false)

/-- 10_state.md R38, R39, 93_implementation_defined.md I15: no rule reads ORPH, DEPTH or ACC before writing them: two
states that differ in nothing else step to states that differ in nothing else. -/
def Obligations.ScratchIsNeverRead : Prop :=
  ∀ (s : State) (orph : List NodeIx) (depth : Vector Byte 511) (acc : Vector Code 511),
    (∀ t, step s = .next t → ∃ orph' depth' acc',
      step { s with orph := orph, depth := depth, acc := acc } =
        .next { t with orph := orph', depth := depth', acc := acc' }) ∧
    (∀ f, step s = .fault f → step { s with orph := orph, depth := depth, acc := acc } = .fault f) ∧
    (∀ r, step s = .refused r → step { s with orph := orph, depth := depth, acc := acc } = .refused r)

/-- 10_state.md R43, "No other event changes them": TREE_VALID and TABLE_VALID change only in a soft reset, in an
accepted NODE write, and in an engine move of BUILD, CHECK, EXTRACT or DECODE. -/
def Obligations.ValidityFlagsChangeOnlyOnTheirEvents : Prop :=
  ∀ s t : State, step s = .next t →
    (t.treeValid ≠ s.treeValid ∨ t.tableValid ≠ s.tableValid) →
    SoftResets s ∨ (s.busy = false ∧ ∃ i v, HostWrites s (.node i) v) ∨
      ∃ i p, EngineMoves s i p ∧ (i = .build ∨ i = .check ∨ i = .extract ∨ i = .decode)

/-- 10_state.md R22 to R34, R36, R38 to R40, 42_bit_stream.md R163, 60_exceptions.md R242, R250: who writes each register,
cursor, array and hidden register, besides a soft reset. -/
def Obligations.EachRegisterHasItsWriters : Prop :=
  ∀ s t : State, step s = .next t → ¬ SoftResets s →
    (s.done = false → t.done = true → ∃ i p, EngineMoves s i p) ∧
    (s.done = true → t.done = false →
      (∃ v, HostWrites s .status v ∧ v.getLsbD 1 = true) ∨ (s.busy = false ∧ ∃ v, HostWrites s .cmd v)) ∧
    (s.dropped = false → t.dropped = true →
      (∃ v, HostWrites s .cmd v) ∨
        (s.busy = true ∧ ((∃ x v, HostWrites s (.weight x) v) ∨ ∃ i v, HostWrites s (.node i) v))) ∧
    (s.dropped = true → t.dropped = false → ∃ v, HostWrites s .status v ∧ v.getLsbD 3 = true) ∧
    (t.err ≠ s.err ∨ t.errCode ≠ s.errCode ∨ t.errInfo ≠ s.errInfo →
      (∃ i p, EngineMoves s i p ∧ (i = .check ∨ i = .extract ∨ i = .encode ∨ i = .decode ∨ i = .wclose ∨ i = .rbit ∨
        i = .clear)) ∨
        (s.busy = false ∧ ∃ v, HostWrites s .cmd v ∧ illegal v = true)) ∧
    (t.op ≠ s.op → s.busy = false ∧ ∃ v, HostWrites s .cmd v) ∧
    (t.result ≠ s.result → ∃ p, EngineMoves s .rbit p ∨ EngineMoves s .clear p) ∧
    (t.irqEn ≠ s.irqEn → ∃ v, HostWrites s .irqEn v) ∧
    (t.wbuf ≠ s.wbuf ∨ t.wcnt ≠ s.wcnt →
      ∃ i p, EngineMoves s i p ∧ ((∃ b, i = .wbit b) ∨ i = .encode ∨ i = .clear)) ∧
    (t.rbuf ≠ s.rbuf ∨ t.rcnt ≠ s.rcnt → ∃ i p, EngineMoves s i p ∧ (i = .rbit ∨ i = .decode ∨ i = .clear)) ∧
    (t.weight ≠ s.weight → s.busy = false ∧ ∃ x v, HostWrites s (.weight x) v) ∧
    (t.node ≠ s.node → (s.busy = false ∧ ∃ i v, HostWrites s (.node i) v) ∨ ∃ p, EngineMoves s .build p) ∧
    (t.nodew ≠ s.nodew → ∃ p, EngineMoves s .build p) ∧
    (t.len ≠ s.len ∨ t.code ≠ s.code → ∃ p, EngineMoves s .extract p) ∧
    (t.orph ≠ s.orph → ∃ p, EngineMoves s .build p) ∧
    (t.depth ≠ s.depth ∨ t.acc ≠ s.acc → ∃ p, EngineMoves s .extract p) ∧
    (t.dstate ≠ s.dstate → ∃ p, EngineMoves s .decode p ∨ EngineMoves s .clear p) ∧
    (t.engine ≠ s.engine → (∃ i p, EngineMoves s i p) ∨ (s.busy = false ∧ ∃ v, HostWrites s .cmd v))

/-- 60_exceptions.md R248: a latched error is kept, code and information, until CLEAR or a soft reset. -/
def Obligations.LatchedErrorIsKept : Prop :=
  ∀ s t : State, MachineInv s → s.err = true → step s = .next t → ¬ SoftResets s →
    (¬ ∃ p, EngineMoves s .clear p) → t.err = true ∧ t.errCode = s.errCode ∧ t.errInfo = s.errInfo

/-- 20_memory.md R73: tokens keep their order on both ports: a step appends at most one token to those OUT has
accepted, withdraws none, and takes at most the oldest IN token, or lets SOURCE append one. -/
def Obligations.PortTokensKeepTheirOrder : Prop :=
  ∀ s t : State, step s = .next t →
    (emitted t = emitted s ∨ ∃ o, emitted t = emitted s ++ [o]) ∧
    (t.source = s.source ∨ (∃ o, s.source = o :: t.source ∧ inReady s = true) ∨ (∃ o, t.source = s.source ++ [o]))

/-- 60_exceptions.md R246, R251, 70_reset_and_hazards.md R281: while a command runs, a host access other than a soft
reset, whether from the agenda or from the host's program, changes neither the command nor anything it works on. -/
def Obligations.HostCannotDisturbARunningCommand : Prop :=
  ∀ (s t : State) (e : Event) (rest : List Event), s.busy = true → s.agenda = e :: rest →
    (e = .hostStmt ∨ ∃ a, e = .host a) → ¬ SoftResets s → step s = .next t →
    t = { s with
      agenda := rest, done := t.done, dropped := t.dropped, irqEn := t.irqEn, reads := t.reads
      program := t.program, bindings := t.bindings, checks := t.checks, draws := t.draws }

/-- 30_encoding.md R97: the LDN pseudo-instructions write the node they name. -/
def Obligations.LoadNodeWritesTheNode : Prop :=
  ∀ (s : State) (i : Fin 511) (rest : List HostStmt), s.busy = false →
    (∀ l r, s.program = .ldnInternal i l r :: rest → move .hostStmt s = .next { s with
      program := rest
      node := s.node.set i.val { left := l, right := r, symbol := 0#8, internal := true } i.isLt
      treeValid := false, tableValid := false }) ∧
    (∀ x, s.program = .ldnLeaf i x :: rest → move .hostStmt s = .next { s with
      program := rest
      node := s.node.set i.val { left := 0x1FF#9, right := 0x1FF#9, symbol := x, internal := false } i.isLt
      treeValid := false, tableValid := false })

/-! ## BUILD, step by step -/

/-- 40_tree_builder.md R110, R111, R113, R114: BUILD writes the leaf of each symbol with its weight extended to 40 bits,
starts from ORPH = [255, 256, ..., 510] and merges into the internal nodes 254, 253, ..., 0 in that order; the leaves and
their weights stay. -/
def Obligations.BuildMergesFrom254To0 : Prop :=
  ∀ (w : Vector Word 256) (b : Builder), ∃ b0 : Builder,
    b0.orph = (List.range 256).map (fun p => BitVec.ofNat 9 (255 + p)) ∧
    (∀ (n : Nat) (h : n < 256), b0.node[255 + n]? = some (Node.leaf (BitVec.ofNat 8 n)) ∧
      b0.nodew[255 + n]? = some (w[n].setWidth 40)) ∧
    buildTree w b = (List.range 255).foldl (fun c k => merge (254 - k) c) b0 ∧
    (∀ (n : Nat) (h : n < 256), (buildTree w b).nodew[255 + n]? = some (w[n].setWidth 40))

/-! ## The host's program -/

/-- 30_encoding.md R96, R97: each statement of a host program makes the access the rules give it, or none, and the program
goes on; a read's result is bound to its name, and an EXPECT of a name finds what the name is bound to (that the host's
program is state, and the record of what EXPECT found, are the model's: log 12, log 13). -/
def Obligations.ProgramStatementsMakeTheirAccess : Prop :=
  ∀ (s : State) (rest : List HostStmt),
    (∀ r v, s.program = .wr r v :: rest →
      move .hostStmt s = move (.host (writeRegAccess r v)) { s with program := rest }) ∧
    (∀ r name, s.program = .rd r name :: rest → ∃ x t,
      move (.host (readReg r)) { s with program := rest } = .next t ∧ t.reads = s.reads ++ [(offsetOf r, x)] ∧
      move .hostStmt s = .next { t with bindings := (name, x) :: s.bindings }) ∧
    (∀ i, s.program = .cmd i :: rest →
      move .hostStmt s = move (.host { kind := .write (encode i), offset := 0x000C#15, bytes := 4 })
        { s with program := rest }) ∧
    (∀ i, s.program = .run i :: rest →
      move .hostStmt s = move (.host { kind := .write (encode i), offset := 0x000C#15, bytes := 4 })
        { s with program := .wait :: rest }) ∧
    (∀ x v, s.program = .ldw x v :: rest →
      move .hostStmt s = move (.host (writeRegAccess (.weight x) v)) { s with program := rest }) ∧
    (s.program = .srst :: rest →
      move .hostStmt s = move (.host (writeRegAccess .ctrl 0x00000001#32)) { s with program := rest }) ∧
    (s.program = .ack :: rest →
      move .hostStmt s = .next { s with program := rest, done := false, dropped := false }) ∧
    (∀ name v, s.program = .expect (.bound name) v :: rest → ∃ c,
      move .hostStmt s = .next { s with program := rest, checks := s.checks ++ [c] } ∧
      (c = true ↔ s.bindings.lookup name = some v)) ∧
    (∀ ts, s.program = .inTokens ts :: rest → move .hostStmt s = .next { s with program := rest }) ∧
    (∀ ts, s.program = .outTokens ts :: rest → move .hostStmt s = .next { s with program := rest })

/-- 20_memory.md R78, 30_encoding.md R97, R98: a WAIT's move reads STATUS; the program passes it only when that read gave
BUSY = 0, and no step of any agent makes it pass otherwise (log 13). -/
def Obligations.WaitEndsOnlyWhenNotBusy : Prop :=
  ∀ (s : State) (rest : List HostStmt), s.program = .wait :: rest →
    (s.busy = true → move .hostStmt s = .next { s with
      reads := s.reads ++ [(0x0008#15, statusWord s)], bindings := ("t", statusWord s) :: s.bindings }) ∧
    (s.busy = false → move .hostStmt s = .next { s with
      program := rest
      reads := s.reads ++ [(0x0008#15, statusWord s)], bindings := ("t", statusWord s) :: s.bindings }) ∧
    (∀ t, step s = .next t → t.program = .wait :: rest ∨ (s.busy = false ∧ t.program = rest))

/-- 30_encoding.md R98, 20_memory.md R74: while a command waits on a port that delivers nothing, a WAIT keeps looping:
after any number of engine moves and STATUS reads (a schedule of the agenda, the model's choice: log 1) the program still
stands at it and BUSY is still 1. -/
def Obligations.WaitLoopsWhileStarved : Prop :=
  ∀ (s : State) (i : Instr) (rest : List HostStmt) (n : Nat), Starved s i → s.program = .wait :: rest →
    ∃ t, runSteps (2 * n) { s with agenda := (List.replicate n [Event.engine, Event.hostStmt]).flatten } = .next t ∧
      t.program = .wait :: rest ∧ t.busy = true ∧ t.reads = s.reads ++ List.replicate n (0x0008#15, statusWord s)
end

