-- ==== Sys2Proof/Laws/Bits.lean ====
section
/-! SUPPORT. Laws/Bits.lean: reading back a bit that was written, and node words. -/

namespace Sys2Proof.Machine

theorem getMsbD_twoPow {w : Nat} (i j : Nat) (hi : i < w) :
    (BitVec.twoPow w (w - 1 - i)).getMsbD j = decide (j = i) := by
  simp only [BitVec.getMsbD, BitVec.getLsbD_twoPow]
  by_cases hj : j < w
  · simp only [hj, decide_true, Bool.true_and]
    by_cases h : j = i
    · subst h
      simp
      omega
    · simp only [h, decide_false]
      simp
      omega
  · have : j ≠ i := by omega
    simp [hj, this]

/-- A bit just written reads back, every other bit is as before. -/
theorem getMsbD_setMsb {w : Nat} (x : BitVec w) (i : Nat) (b : Bool) (j : Nat) (hi : i < w) :
    (setMsb x i b).getMsbD j = if j = i then b else x.getMsbD j := by
  by_cases hj : j < w
  · have ht := getMsbD_twoPow i j hi
    cases b <;> by_cases h : j = i <;>
      simp only [setMsb, if_true, if_false, Bool.false_eq_true, BitVec.getMsbD_or, BitVec.getMsbD_and,
        BitVec.getMsbD_not, ht] <;> simp [h, hi, hj]
  · have : j ≠ i := by omega
    simp [BitVec.getMsbD, hj, this]

theorem codeBit_setMsb (c : Code) (i : Nat) (b : Bool) (j : Nat) (hi : i < 256) :
    codeBit (setMsb c i b) j = if j = i then b else codeBit c j := getMsbD_setMsb c i b j hi

@[simp] theorem codeBit_zero (j : Nat) : codeBit 0#256 j = false := by simp [codeBit]

/-- A node index names a node exactly when it is not NIL (R6). -/
theorem nodeAt_isSome (a : Vector Node 511) (i : NodeIx) : (nodeAt a i).isSome ↔ i ≠ Config.nil := by
  have hi := i.isLt
  simp only [nodeAt, Config.nil, ne_eq, BitVec.toNat_eq, Option.isSome_iff_exists]
  constructor
  · rintro ⟨n, h⟩ h'
    rw [h'] at h
    simp at h
  · intro h
    have : i.toNat < 511 := by simp at h; omega
    exact ⟨a[i.toNat], by simp [this]⟩

theorem nodeAt_eq_some (a : Vector Node 511) (i : NodeIx) (n : Node) :
    nodeAt a i = some n ↔ ∃ h : i.toNat < 511, a[i.toNat] = n := by
  simp [nodeAt, Vector.getElem?_eq_some_iff]

end Sys2Proof.Machine
end

