-- ==== Sys2Proof/Laws/State.lean ====
section
/-! SUPPORT. Laws/State.lean: what each named update of the state does to each field, so that no proof unfolds a record
update. -/

namespace Sys2Proof.Machine

/-! ### enter -/

@[simp] theorem enter_done (i : Instr) (p : Phase) (s : State) : (enter i p s).done = s.done := rfl
@[simp] theorem enter_err (i : Instr) (p : Phase) (s : State) : (enter i p s).err = s.err := rfl
@[simp] theorem enter_dropped (i : Instr) (p : Phase) (s : State) : (enter i p s).dropped = s.dropped := rfl
@[simp] theorem enter_treeValid (i : Instr) (p : Phase) (s : State) : (enter i p s).treeValid = s.treeValid := rfl
@[simp] theorem enter_tableValid (i : Instr) (p : Phase) (s : State) : (enter i p s).tableValid = s.tableValid := rfl
@[simp] theorem enter_op (i : Instr) (p : Phase) (s : State) : (enter i p s).op = s.op := rfl
@[simp] theorem enter_errCode (i : Instr) (p : Phase) (s : State) : (enter i p s).errCode = s.errCode := rfl
@[simp] theorem enter_errInfo (i : Instr) (p : Phase) (s : State) : (enter i p s).errInfo = s.errInfo := rfl
@[simp] theorem enter_result (i : Instr) (p : Phase) (s : State) : (enter i p s).result = s.result := rfl
@[simp] theorem enter_irqEn (i : Instr) (p : Phase) (s : State) : (enter i p s).irqEn = s.irqEn := rfl
@[simp] theorem enter_weight (i : Instr) (p : Phase) (s : State) : (enter i p s).weight = s.weight := rfl
@[simp] theorem enter_node (i : Instr) (p : Phase) (s : State) : (enter i p s).node = s.node := rfl
@[simp] theorem enter_nodew (i : Instr) (p : Phase) (s : State) : (enter i p s).nodew = s.nodew := rfl
@[simp] theorem enter_len (i : Instr) (p : Phase) (s : State) : (enter i p s).len = s.len := rfl
@[simp] theorem enter_code (i : Instr) (p : Phase) (s : State) : (enter i p s).code = s.code := rfl
@[simp] theorem enter_wbuf (i : Instr) (p : Phase) (s : State) : (enter i p s).wbuf = s.wbuf := rfl
@[simp] theorem enter_wcnt (i : Instr) (p : Phase) (s : State) : (enter i p s).wcnt = s.wcnt := rfl
@[simp] theorem enter_rbuf (i : Instr) (p : Phase) (s : State) : (enter i p s).rbuf = s.rbuf := rfl
@[simp] theorem enter_rcnt (i : Instr) (p : Phase) (s : State) : (enter i p s).rcnt = s.rcnt := rfl
@[simp] theorem enter_engine (i : Instr) (p : Phase) (s : State) : (enter i p s).engine = .run (encode i) p := rfl
@[simp] theorem enter_orph (i : Instr) (p : Phase) (s : State) : (enter i p s).orph = s.orph := rfl
@[simp] theorem enter_depth (i : Instr) (p : Phase) (s : State) : (enter i p s).depth = s.depth := rfl
@[simp] theorem enter_acc (i : Instr) (p : Phase) (s : State) : (enter i p s).acc = s.acc := rfl
@[simp] theorem enter_dstate (i : Instr) (p : Phase) (s : State) : (enter i p s).dstate = s.dstate := rfl
@[simp] theorem enter_outq (i : Instr) (p : Phase) (s : State) : (enter i p s).outq = s.outq := rfl
@[simp] theorem enter_source (i : Instr) (p : Phase) (s : State) : (enter i p s).source = s.source := rfl
@[simp] theorem enter_sunk (i : Instr) (p : Phase) (s : State) : (enter i p s).sunk = s.sunk := rfl
@[simp] theorem enter_agenda (i : Instr) (p : Phase) (s : State) : (enter i p s).agenda = s.agenda := rfl
@[simp] theorem enter_reads (i : Instr) (p : Phase) (s : State) : (enter i p s).reads = s.reads := rfl
@[simp] theorem enter_program (i : Instr) (p : Phase) (s : State) : (enter i p s).program = s.program := rfl
@[simp] theorem enter_bindings (i : Instr) (p : Phase) (s : State) : (enter i p s).bindings = s.bindings := rfl
@[simp] theorem enter_checks (i : Instr) (p : Phase) (s : State) : (enter i p s).checks = s.checks := rfl
@[simp] theorem enter_draws (i : Instr) (p : Phase) (s : State) : (enter i p s).draws = s.draws := rfl

/-! ### complete -/

@[simp] theorem complete_done (s : State) : (complete s).done = true := rfl
@[simp] theorem complete_err (s : State) : (complete s).err = s.err := rfl
@[simp] theorem complete_dropped (s : State) : (complete s).dropped = s.dropped := rfl
@[simp] theorem complete_treeValid (s : State) : (complete s).treeValid = s.treeValid := rfl
@[simp] theorem complete_tableValid (s : State) : (complete s).tableValid = s.tableValid := rfl
@[simp] theorem complete_op (s : State) : (complete s).op = s.op := rfl
@[simp] theorem complete_errCode (s : State) : (complete s).errCode = s.errCode := rfl
@[simp] theorem complete_errInfo (s : State) : (complete s).errInfo = s.errInfo := rfl
@[simp] theorem complete_result (s : State) : (complete s).result = s.result := rfl
@[simp] theorem complete_irqEn (s : State) : (complete s).irqEn = s.irqEn := rfl
@[simp] theorem complete_weight (s : State) : (complete s).weight = s.weight := rfl
@[simp] theorem complete_node (s : State) : (complete s).node = s.node := rfl
@[simp] theorem complete_nodew (s : State) : (complete s).nodew = s.nodew := rfl
@[simp] theorem complete_len (s : State) : (complete s).len = s.len := rfl
@[simp] theorem complete_code (s : State) : (complete s).code = s.code := rfl
@[simp] theorem complete_wbuf (s : State) : (complete s).wbuf = s.wbuf := rfl
@[simp] theorem complete_wcnt (s : State) : (complete s).wcnt = s.wcnt := rfl
@[simp] theorem complete_rbuf (s : State) : (complete s).rbuf = s.rbuf := rfl
@[simp] theorem complete_rcnt (s : State) : (complete s).rcnt = s.rcnt := rfl
@[simp] theorem complete_engine (s : State) : (complete s).engine = .idle := rfl
@[simp] theorem complete_orph (s : State) : (complete s).orph = s.orph := rfl
@[simp] theorem complete_depth (s : State) : (complete s).depth = s.depth := rfl
@[simp] theorem complete_acc (s : State) : (complete s).acc = s.acc := rfl
@[simp] theorem complete_dstate (s : State) : (complete s).dstate = s.dstate := rfl
@[simp] theorem complete_outq (s : State) : (complete s).outq = s.outq := rfl
@[simp] theorem complete_source (s : State) : (complete s).source = s.source := rfl
@[simp] theorem complete_sunk (s : State) : (complete s).sunk = s.sunk := rfl
@[simp] theorem complete_agenda (s : State) : (complete s).agenda = s.agenda := rfl
@[simp] theorem complete_reads (s : State) : (complete s).reads = s.reads := rfl
@[simp] theorem complete_program (s : State) : (complete s).program = s.program := rfl
@[simp] theorem complete_bindings (s : State) : (complete s).bindings = s.bindings := rfl
@[simp] theorem complete_checks (s : State) : (complete s).checks = s.checks := rfl
@[simp] theorem complete_draws (s : State) : (complete s).draws = s.draws := rfl

/-! ### latch -/

@[simp] theorem latch_done (e : ErrorKind) (info : Word) (s : State) : (latch e info s).done = s.done := rfl
@[simp] theorem latch_err (e : ErrorKind) (info : Word) (s : State) : (latch e info s).err = true := rfl
@[simp] theorem latch_dropped (e : ErrorKind) (info : Word) (s : State) : (latch e info s).dropped = s.dropped := rfl
@[simp] theorem latch_treeValid (e : ErrorKind) (info : Word) (s : State) : (latch e info s).treeValid = s.treeValid := rfl
@[simp] theorem latch_tableValid (e : ErrorKind) (info : Word) (s : State) : (latch e info s).tableValid = s.tableValid := rfl
@[simp] theorem latch_op (e : ErrorKind) (info : Word) (s : State) : (latch e info s).op = s.op := rfl
@[simp] theorem latch_errCode (e : ErrorKind) (info : Word) (s : State) : (latch e info s).errCode = e.code := rfl
@[simp] theorem latch_errInfo (e : ErrorKind) (info : Word) (s : State) : (latch e info s).errInfo = info := rfl
@[simp] theorem latch_result (e : ErrorKind) (info : Word) (s : State) : (latch e info s).result = s.result := rfl
@[simp] theorem latch_irqEn (e : ErrorKind) (info : Word) (s : State) : (latch e info s).irqEn = s.irqEn := rfl
@[simp] theorem latch_weight (e : ErrorKind) (info : Word) (s : State) : (latch e info s).weight = s.weight := rfl
@[simp] theorem latch_node (e : ErrorKind) (info : Word) (s : State) : (latch e info s).node = s.node := rfl
@[simp] theorem latch_nodew (e : ErrorKind) (info : Word) (s : State) : (latch e info s).nodew = s.nodew := rfl
@[simp] theorem latch_len (e : ErrorKind) (info : Word) (s : State) : (latch e info s).len = s.len := rfl
@[simp] theorem latch_code (e : ErrorKind) (info : Word) (s : State) : (latch e info s).code = s.code := rfl
@[simp] theorem latch_wbuf (e : ErrorKind) (info : Word) (s : State) : (latch e info s).wbuf = s.wbuf := rfl
@[simp] theorem latch_wcnt (e : ErrorKind) (info : Word) (s : State) : (latch e info s).wcnt = s.wcnt := rfl
@[simp] theorem latch_rbuf (e : ErrorKind) (info : Word) (s : State) : (latch e info s).rbuf = s.rbuf := rfl
@[simp] theorem latch_rcnt (e : ErrorKind) (info : Word) (s : State) : (latch e info s).rcnt = s.rcnt := rfl
@[simp] theorem latch_engine (e : ErrorKind) (info : Word) (s : State) : (latch e info s).engine = .idle := rfl
@[simp] theorem latch_orph (e : ErrorKind) (info : Word) (s : State) : (latch e info s).orph = s.orph := rfl
@[simp] theorem latch_depth (e : ErrorKind) (info : Word) (s : State) : (latch e info s).depth = s.depth := rfl
@[simp] theorem latch_acc (e : ErrorKind) (info : Word) (s : State) : (latch e info s).acc = s.acc := rfl
@[simp] theorem latch_dstate (e : ErrorKind) (info : Word) (s : State) : (latch e info s).dstate = s.dstate := rfl
@[simp] theorem latch_outq (e : ErrorKind) (info : Word) (s : State) : (latch e info s).outq = s.outq := rfl
@[simp] theorem latch_source (e : ErrorKind) (info : Word) (s : State) : (latch e info s).source = s.source := rfl
@[simp] theorem latch_sunk (e : ErrorKind) (info : Word) (s : State) : (latch e info s).sunk = s.sunk := rfl
@[simp] theorem latch_agenda (e : ErrorKind) (info : Word) (s : State) : (latch e info s).agenda = s.agenda := rfl
@[simp] theorem latch_reads (e : ErrorKind) (info : Word) (s : State) : (latch e info s).reads = s.reads := rfl
@[simp] theorem latch_program (e : ErrorKind) (info : Word) (s : State) : (latch e info s).program = s.program := rfl
@[simp] theorem latch_bindings (e : ErrorKind) (info : Word) (s : State) : (latch e info s).bindings = s.bindings := rfl
@[simp] theorem latch_checks (e : ErrorKind) (info : Word) (s : State) : (latch e info s).checks = s.checks := rfl
@[simp] theorem latch_draws (e : ErrorKind) (info : Word) (s : State) : (latch e info s).draws = s.draws := rfl

/-! ### clearWrite -/

@[simp] theorem clearWrite_done (s : State) : (clearWrite s).done = s.done := rfl
@[simp] theorem clearWrite_err (s : State) : (clearWrite s).err = s.err := rfl
@[simp] theorem clearWrite_dropped (s : State) : (clearWrite s).dropped = s.dropped := rfl
@[simp] theorem clearWrite_treeValid (s : State) : (clearWrite s).treeValid = s.treeValid := rfl
@[simp] theorem clearWrite_tableValid (s : State) : (clearWrite s).tableValid = s.tableValid := rfl
@[simp] theorem clearWrite_op (s : State) : (clearWrite s).op = s.op := rfl
@[simp] theorem clearWrite_errCode (s : State) : (clearWrite s).errCode = s.errCode := rfl
@[simp] theorem clearWrite_errInfo (s : State) : (clearWrite s).errInfo = s.errInfo := rfl
@[simp] theorem clearWrite_result (s : State) : (clearWrite s).result = s.result := rfl
@[simp] theorem clearWrite_irqEn (s : State) : (clearWrite s).irqEn = s.irqEn := rfl
@[simp] theorem clearWrite_weight (s : State) : (clearWrite s).weight = s.weight := rfl
@[simp] theorem clearWrite_node (s : State) : (clearWrite s).node = s.node := rfl
@[simp] theorem clearWrite_nodew (s : State) : (clearWrite s).nodew = s.nodew := rfl
@[simp] theorem clearWrite_len (s : State) : (clearWrite s).len = s.len := rfl
@[simp] theorem clearWrite_code (s : State) : (clearWrite s).code = s.code := rfl
@[simp] theorem clearWrite_wbuf (s : State) : (clearWrite s).wbuf = 0#8 := rfl
@[simp] theorem clearWrite_wcnt (s : State) : (clearWrite s).wcnt = 0#3 := rfl
@[simp] theorem clearWrite_rbuf (s : State) : (clearWrite s).rbuf = s.rbuf := rfl
@[simp] theorem clearWrite_rcnt (s : State) : (clearWrite s).rcnt = s.rcnt := rfl
@[simp] theorem clearWrite_engine (s : State) : (clearWrite s).engine = s.engine := rfl
@[simp] theorem clearWrite_orph (s : State) : (clearWrite s).orph = s.orph := rfl
@[simp] theorem clearWrite_depth (s : State) : (clearWrite s).depth = s.depth := rfl
@[simp] theorem clearWrite_acc (s : State) : (clearWrite s).acc = s.acc := rfl
@[simp] theorem clearWrite_dstate (s : State) : (clearWrite s).dstate = s.dstate := rfl
@[simp] theorem clearWrite_outq (s : State) : (clearWrite s).outq = s.outq := rfl
@[simp] theorem clearWrite_source (s : State) : (clearWrite s).source = s.source := rfl
@[simp] theorem clearWrite_sunk (s : State) : (clearWrite s).sunk = s.sunk := rfl
@[simp] theorem clearWrite_agenda (s : State) : (clearWrite s).agenda = s.agenda := rfl
@[simp] theorem clearWrite_reads (s : State) : (clearWrite s).reads = s.reads := rfl
@[simp] theorem clearWrite_program (s : State) : (clearWrite s).program = s.program := rfl
@[simp] theorem clearWrite_bindings (s : State) : (clearWrite s).bindings = s.bindings := rfl
@[simp] theorem clearWrite_checks (s : State) : (clearWrite s).checks = s.checks := rfl
@[simp] theorem clearWrite_draws (s : State) : (clearWrite s).draws = s.draws := rfl

/-! ### shiftIn -/

@[simp] theorem shiftIn_done (b : Bool) (s : State) : (shiftIn b s).done = s.done := rfl
@[simp] theorem shiftIn_err (b : Bool) (s : State) : (shiftIn b s).err = s.err := rfl
@[simp] theorem shiftIn_dropped (b : Bool) (s : State) : (shiftIn b s).dropped = s.dropped := rfl
@[simp] theorem shiftIn_treeValid (b : Bool) (s : State) : (shiftIn b s).treeValid = s.treeValid := rfl
@[simp] theorem shiftIn_tableValid (b : Bool) (s : State) : (shiftIn b s).tableValid = s.tableValid := rfl
@[simp] theorem shiftIn_op (b : Bool) (s : State) : (shiftIn b s).op = s.op := rfl
@[simp] theorem shiftIn_errCode (b : Bool) (s : State) : (shiftIn b s).errCode = s.errCode := rfl
@[simp] theorem shiftIn_errInfo (b : Bool) (s : State) : (shiftIn b s).errInfo = s.errInfo := rfl
@[simp] theorem shiftIn_result (b : Bool) (s : State) : (shiftIn b s).result = s.result := rfl
@[simp] theorem shiftIn_irqEn (b : Bool) (s : State) : (shiftIn b s).irqEn = s.irqEn := rfl
@[simp] theorem shiftIn_weight (b : Bool) (s : State) : (shiftIn b s).weight = s.weight := rfl
@[simp] theorem shiftIn_node (b : Bool) (s : State) : (shiftIn b s).node = s.node := rfl
@[simp] theorem shiftIn_nodew (b : Bool) (s : State) : (shiftIn b s).nodew = s.nodew := rfl
@[simp] theorem shiftIn_len (b : Bool) (s : State) : (shiftIn b s).len = s.len := rfl
@[simp] theorem shiftIn_code (b : Bool) (s : State) : (shiftIn b s).code = s.code := rfl
@[simp] theorem shiftIn_wbuf (b : Bool) (s : State) : (shiftIn b s).wbuf = setMsb s.wbuf s.wcnt.toNat b := rfl
@[simp] theorem shiftIn_wcnt (b : Bool) (s : State) : (shiftIn b s).wcnt = if flushDue s then s.wcnt else s.wcnt + 1#3 := rfl
@[simp] theorem shiftIn_rbuf (b : Bool) (s : State) : (shiftIn b s).rbuf = s.rbuf := rfl
@[simp] theorem shiftIn_rcnt (b : Bool) (s : State) : (shiftIn b s).rcnt = s.rcnt := rfl
@[simp] theorem shiftIn_engine (b : Bool) (s : State) : (shiftIn b s).engine = s.engine := rfl
@[simp] theorem shiftIn_orph (b : Bool) (s : State) : (shiftIn b s).orph = s.orph := rfl
@[simp] theorem shiftIn_depth (b : Bool) (s : State) : (shiftIn b s).depth = s.depth := rfl
@[simp] theorem shiftIn_acc (b : Bool) (s : State) : (shiftIn b s).acc = s.acc := rfl
@[simp] theorem shiftIn_dstate (b : Bool) (s : State) : (shiftIn b s).dstate = s.dstate := rfl
@[simp] theorem shiftIn_outq (b : Bool) (s : State) : (shiftIn b s).outq = s.outq := rfl
@[simp] theorem shiftIn_source (b : Bool) (s : State) : (shiftIn b s).source = s.source := rfl
@[simp] theorem shiftIn_sunk (b : Bool) (s : State) : (shiftIn b s).sunk = s.sunk := rfl
@[simp] theorem shiftIn_agenda (b : Bool) (s : State) : (shiftIn b s).agenda = s.agenda := rfl
@[simp] theorem shiftIn_reads (b : Bool) (s : State) : (shiftIn b s).reads = s.reads := rfl
@[simp] theorem shiftIn_program (b : Bool) (s : State) : (shiftIn b s).program = s.program := rfl
@[simp] theorem shiftIn_bindings (b : Bool) (s : State) : (shiftIn b s).bindings = s.bindings := rfl
@[simp] theorem shiftIn_checks (b : Bool) (s : State) : (shiftIn b s).checks = s.checks := rfl
@[simp] theorem shiftIn_draws (b : Bool) (s : State) : (shiftIn b s).draws = s.draws := rfl

/-! ### loadByte -/

@[simp] theorem loadByte_done (d : Byte) (s : State) : (loadByte d s).done = s.done := rfl
@[simp] theorem loadByte_err (d : Byte) (s : State) : (loadByte d s).err = s.err := rfl
@[simp] theorem loadByte_dropped (d : Byte) (s : State) : (loadByte d s).dropped = s.dropped := rfl
@[simp] theorem loadByte_treeValid (d : Byte) (s : State) : (loadByte d s).treeValid = s.treeValid := rfl
@[simp] theorem loadByte_tableValid (d : Byte) (s : State) : (loadByte d s).tableValid = s.tableValid := rfl
@[simp] theorem loadByte_op (d : Byte) (s : State) : (loadByte d s).op = s.op := rfl
@[simp] theorem loadByte_errCode (d : Byte) (s : State) : (loadByte d s).errCode = s.errCode := rfl
@[simp] theorem loadByte_errInfo (d : Byte) (s : State) : (loadByte d s).errInfo = s.errInfo := rfl
@[simp] theorem loadByte_result (d : Byte) (s : State) : (loadByte d s).result = s.result := rfl
@[simp] theorem loadByte_irqEn (d : Byte) (s : State) : (loadByte d s).irqEn = s.irqEn := rfl
@[simp] theorem loadByte_weight (d : Byte) (s : State) : (loadByte d s).weight = s.weight := rfl
@[simp] theorem loadByte_node (d : Byte) (s : State) : (loadByte d s).node = s.node := rfl
@[simp] theorem loadByte_nodew (d : Byte) (s : State) : (loadByte d s).nodew = s.nodew := rfl
@[simp] theorem loadByte_len (d : Byte) (s : State) : (loadByte d s).len = s.len := rfl
@[simp] theorem loadByte_code (d : Byte) (s : State) : (loadByte d s).code = s.code := rfl
@[simp] theorem loadByte_wbuf (d : Byte) (s : State) : (loadByte d s).wbuf = s.wbuf := rfl
@[simp] theorem loadByte_wcnt (d : Byte) (s : State) : (loadByte d s).wcnt = s.wcnt := rfl
@[simp] theorem loadByte_rbuf (d : Byte) (s : State) : (loadByte d s).rbuf = d := rfl
@[simp] theorem loadByte_rcnt (d : Byte) (s : State) : (loadByte d s).rcnt = s.rcnt := rfl
@[simp] theorem loadByte_engine (d : Byte) (s : State) : (loadByte d s).engine = s.engine := rfl
@[simp] theorem loadByte_orph (d : Byte) (s : State) : (loadByte d s).orph = s.orph := rfl
@[simp] theorem loadByte_depth (d : Byte) (s : State) : (loadByte d s).depth = s.depth := rfl
@[simp] theorem loadByte_acc (d : Byte) (s : State) : (loadByte d s).acc = s.acc := rfl
@[simp] theorem loadByte_dstate (d : Byte) (s : State) : (loadByte d s).dstate = s.dstate := rfl
@[simp] theorem loadByte_outq (d : Byte) (s : State) : (loadByte d s).outq = s.outq := rfl
@[simp] theorem loadByte_source (d : Byte) (s : State) : (loadByte d s).source = s.source := rfl
@[simp] theorem loadByte_sunk (d : Byte) (s : State) : (loadByte d s).sunk = s.sunk := rfl
@[simp] theorem loadByte_agenda (d : Byte) (s : State) : (loadByte d s).agenda = s.agenda := rfl
@[simp] theorem loadByte_reads (d : Byte) (s : State) : (loadByte d s).reads = s.reads := rfl
@[simp] theorem loadByte_program (d : Byte) (s : State) : (loadByte d s).program = s.program := rfl
@[simp] theorem loadByte_bindings (d : Byte) (s : State) : (loadByte d s).bindings = s.bindings := rfl
@[simp] theorem loadByte_checks (d : Byte) (s : State) : (loadByte d s).checks = s.checks := rfl
@[simp] theorem loadByte_draws (d : Byte) (s : State) : (loadByte d s).draws = s.draws := rfl

/-! ### setRcnt -/

@[simp] theorem setRcnt_done (n : Nat) (s : State) : (setRcnt n s).done = s.done := rfl
@[simp] theorem setRcnt_err (n : Nat) (s : State) : (setRcnt n s).err = s.err := rfl
@[simp] theorem setRcnt_dropped (n : Nat) (s : State) : (setRcnt n s).dropped = s.dropped := rfl
@[simp] theorem setRcnt_treeValid (n : Nat) (s : State) : (setRcnt n s).treeValid = s.treeValid := rfl
@[simp] theorem setRcnt_tableValid (n : Nat) (s : State) : (setRcnt n s).tableValid = s.tableValid := rfl
@[simp] theorem setRcnt_op (n : Nat) (s : State) : (setRcnt n s).op = s.op := rfl
@[simp] theorem setRcnt_errCode (n : Nat) (s : State) : (setRcnt n s).errCode = s.errCode := rfl
@[simp] theorem setRcnt_errInfo (n : Nat) (s : State) : (setRcnt n s).errInfo = s.errInfo := rfl
@[simp] theorem setRcnt_result (n : Nat) (s : State) : (setRcnt n s).result = s.result := rfl
@[simp] theorem setRcnt_irqEn (n : Nat) (s : State) : (setRcnt n s).irqEn = s.irqEn := rfl
@[simp] theorem setRcnt_weight (n : Nat) (s : State) : (setRcnt n s).weight = s.weight := rfl
@[simp] theorem setRcnt_node (n : Nat) (s : State) : (setRcnt n s).node = s.node := rfl
@[simp] theorem setRcnt_nodew (n : Nat) (s : State) : (setRcnt n s).nodew = s.nodew := rfl
@[simp] theorem setRcnt_len (n : Nat) (s : State) : (setRcnt n s).len = s.len := rfl
@[simp] theorem setRcnt_code (n : Nat) (s : State) : (setRcnt n s).code = s.code := rfl
@[simp] theorem setRcnt_wbuf (n : Nat) (s : State) : (setRcnt n s).wbuf = s.wbuf := rfl
@[simp] theorem setRcnt_wcnt (n : Nat) (s : State) : (setRcnt n s).wcnt = s.wcnt := rfl
@[simp] theorem setRcnt_rbuf (n : Nat) (s : State) : (setRcnt n s).rbuf = s.rbuf := rfl
@[simp] theorem setRcnt_rcnt (n : Nat) (s : State) : (setRcnt n s).rcnt = BitVec.ofNat 3 n := rfl
@[simp] theorem setRcnt_engine (n : Nat) (s : State) : (setRcnt n s).engine = s.engine := rfl
@[simp] theorem setRcnt_orph (n : Nat) (s : State) : (setRcnt n s).orph = s.orph := rfl
@[simp] theorem setRcnt_depth (n : Nat) (s : State) : (setRcnt n s).depth = s.depth := rfl
@[simp] theorem setRcnt_acc (n : Nat) (s : State) : (setRcnt n s).acc = s.acc := rfl
@[simp] theorem setRcnt_dstate (n : Nat) (s : State) : (setRcnt n s).dstate = s.dstate := rfl
@[simp] theorem setRcnt_outq (n : Nat) (s : State) : (setRcnt n s).outq = s.outq := rfl
@[simp] theorem setRcnt_source (n : Nat) (s : State) : (setRcnt n s).source = s.source := rfl
@[simp] theorem setRcnt_sunk (n : Nat) (s : State) : (setRcnt n s).sunk = s.sunk := rfl
@[simp] theorem setRcnt_agenda (n : Nat) (s : State) : (setRcnt n s).agenda = s.agenda := rfl
@[simp] theorem setRcnt_reads (n : Nat) (s : State) : (setRcnt n s).reads = s.reads := rfl
@[simp] theorem setRcnt_program (n : Nat) (s : State) : (setRcnt n s).program = s.program := rfl
@[simp] theorem setRcnt_bindings (n : Nat) (s : State) : (setRcnt n s).bindings = s.bindings := rfl
@[simp] theorem setRcnt_checks (n : Nat) (s : State) : (setRcnt n s).checks = s.checks := rfl
@[simp] theorem setRcnt_draws (n : Nat) (s : State) : (setRcnt n s).draws = s.draws := rfl

/-! ### drop -/

@[simp] theorem drop_done (s : State) : (drop s).done = s.done := rfl
@[simp] theorem drop_err (s : State) : (drop s).err = s.err := rfl
@[simp] theorem drop_dropped (s : State) : (drop s).dropped = true := rfl
@[simp] theorem drop_treeValid (s : State) : (drop s).treeValid = s.treeValid := rfl
@[simp] theorem drop_tableValid (s : State) : (drop s).tableValid = s.tableValid := rfl
@[simp] theorem drop_op (s : State) : (drop s).op = s.op := rfl
@[simp] theorem drop_errCode (s : State) : (drop s).errCode = s.errCode := rfl
@[simp] theorem drop_errInfo (s : State) : (drop s).errInfo = s.errInfo := rfl
@[simp] theorem drop_result (s : State) : (drop s).result = s.result := rfl
@[simp] theorem drop_irqEn (s : State) : (drop s).irqEn = s.irqEn := rfl
@[simp] theorem drop_weight (s : State) : (drop s).weight = s.weight := rfl
@[simp] theorem drop_node (s : State) : (drop s).node = s.node := rfl
@[simp] theorem drop_nodew (s : State) : (drop s).nodew = s.nodew := rfl
@[simp] theorem drop_len (s : State) : (drop s).len = s.len := rfl
@[simp] theorem drop_code (s : State) : (drop s).code = s.code := rfl
@[simp] theorem drop_wbuf (s : State) : (drop s).wbuf = s.wbuf := rfl
@[simp] theorem drop_wcnt (s : State) : (drop s).wcnt = s.wcnt := rfl
@[simp] theorem drop_rbuf (s : State) : (drop s).rbuf = s.rbuf := rfl
@[simp] theorem drop_rcnt (s : State) : (drop s).rcnt = s.rcnt := rfl
@[simp] theorem drop_engine (s : State) : (drop s).engine = s.engine := rfl
@[simp] theorem drop_orph (s : State) : (drop s).orph = s.orph := rfl
@[simp] theorem drop_depth (s : State) : (drop s).depth = s.depth := rfl
@[simp] theorem drop_acc (s : State) : (drop s).acc = s.acc := rfl
@[simp] theorem drop_dstate (s : State) : (drop s).dstate = s.dstate := rfl
@[simp] theorem drop_outq (s : State) : (drop s).outq = s.outq := rfl
@[simp] theorem drop_source (s : State) : (drop s).source = s.source := rfl
@[simp] theorem drop_sunk (s : State) : (drop s).sunk = s.sunk := rfl
@[simp] theorem drop_agenda (s : State) : (drop s).agenda = s.agenda := rfl
@[simp] theorem drop_reads (s : State) : (drop s).reads = s.reads := rfl
@[simp] theorem drop_program (s : State) : (drop s).program = s.program := rfl
@[simp] theorem drop_bindings (s : State) : (drop s).bindings = s.bindings := rfl
@[simp] theorem drop_checks (s : State) : (drop s).checks = s.checks := rfl
@[simp] theorem drop_draws (s : State) : (drop s).draws = s.draws := rfl

/-! ### accept -/

@[simp] theorem accept_done (v : Word) (s : State) : (accept v s).done = false := rfl
@[simp] theorem accept_err (v : Word) (s : State) : (accept v s).err = s.err := rfl
@[simp] theorem accept_dropped (v : Word) (s : State) : (accept v s).dropped = s.dropped := rfl
@[simp] theorem accept_treeValid (v : Word) (s : State) : (accept v s).treeValid = s.treeValid := rfl
@[simp] theorem accept_tableValid (v : Word) (s : State) : (accept v s).tableValid = s.tableValid := rfl
@[simp] theorem accept_op (v : Word) (s : State) : (accept v s).op = v.extractLsb' 0 4 := rfl
@[simp] theorem accept_errCode (v : Word) (s : State) : (accept v s).errCode = s.errCode := rfl
@[simp] theorem accept_errInfo (v : Word) (s : State) : (accept v s).errInfo = s.errInfo := rfl
@[simp] theorem accept_result (v : Word) (s : State) : (accept v s).result = s.result := rfl
@[simp] theorem accept_irqEn (v : Word) (s : State) : (accept v s).irqEn = s.irqEn := rfl
@[simp] theorem accept_weight (v : Word) (s : State) : (accept v s).weight = s.weight := rfl
@[simp] theorem accept_node (v : Word) (s : State) : (accept v s).node = s.node := rfl
@[simp] theorem accept_nodew (v : Word) (s : State) : (accept v s).nodew = s.nodew := rfl
@[simp] theorem accept_len (v : Word) (s : State) : (accept v s).len = s.len := rfl
@[simp] theorem accept_code (v : Word) (s : State) : (accept v s).code = s.code := rfl
@[simp] theorem accept_wbuf (v : Word) (s : State) : (accept v s).wbuf = s.wbuf := rfl
@[simp] theorem accept_wcnt (v : Word) (s : State) : (accept v s).wcnt = s.wcnt := rfl
@[simp] theorem accept_rbuf (v : Word) (s : State) : (accept v s).rbuf = s.rbuf := rfl
@[simp] theorem accept_rcnt (v : Word) (s : State) : (accept v s).rcnt = s.rcnt := rfl
@[simp] theorem accept_engine (v : Word) (s : State) : (accept v s).engine = .run v .start := rfl
@[simp] theorem accept_orph (v : Word) (s : State) : (accept v s).orph = s.orph := rfl
@[simp] theorem accept_depth (v : Word) (s : State) : (accept v s).depth = s.depth := rfl
@[simp] theorem accept_acc (v : Word) (s : State) : (accept v s).acc = s.acc := rfl
@[simp] theorem accept_dstate (v : Word) (s : State) : (accept v s).dstate = s.dstate := rfl
@[simp] theorem accept_outq (v : Word) (s : State) : (accept v s).outq = s.outq := rfl
@[simp] theorem accept_source (v : Word) (s : State) : (accept v s).source = s.source := rfl
@[simp] theorem accept_sunk (v : Word) (s : State) : (accept v s).sunk = s.sunk := rfl
@[simp] theorem accept_agenda (v : Word) (s : State) : (accept v s).agenda = s.agenda := rfl
@[simp] theorem accept_reads (v : Word) (s : State) : (accept v s).reads = s.reads := rfl
@[simp] theorem accept_program (v : Word) (s : State) : (accept v s).program = s.program := rfl
@[simp] theorem accept_bindings (v : Word) (s : State) : (accept v s).bindings = s.bindings := rfl
@[simp] theorem accept_checks (v : Word) (s : State) : (accept v s).checks = s.checks := rfl
@[simp] theorem accept_draws (v : Word) (s : State) : (accept v s).draws = s.draws := rfl

/-! ### forgetOrph -/

@[simp] theorem forgetOrph_done (s : State) : (forgetOrph s).done = s.done := rfl
@[simp] theorem forgetOrph_err (s : State) : (forgetOrph s).err = s.err := rfl
@[simp] theorem forgetOrph_dropped (s : State) : (forgetOrph s).dropped = s.dropped := rfl
@[simp] theorem forgetOrph_treeValid (s : State) : (forgetOrph s).treeValid = s.treeValid := rfl
@[simp] theorem forgetOrph_tableValid (s : State) : (forgetOrph s).tableValid = s.tableValid := rfl
@[simp] theorem forgetOrph_op (s : State) : (forgetOrph s).op = s.op := rfl
@[simp] theorem forgetOrph_errCode (s : State) : (forgetOrph s).errCode = s.errCode := rfl
@[simp] theorem forgetOrph_errInfo (s : State) : (forgetOrph s).errInfo = s.errInfo := rfl
@[simp] theorem forgetOrph_result (s : State) : (forgetOrph s).result = s.result := rfl
@[simp] theorem forgetOrph_irqEn (s : State) : (forgetOrph s).irqEn = s.irqEn := rfl
@[simp] theorem forgetOrph_weight (s : State) : (forgetOrph s).weight = s.weight := rfl
@[simp] theorem forgetOrph_node (s : State) : (forgetOrph s).node = s.node := rfl
@[simp] theorem forgetOrph_nodew (s : State) : (forgetOrph s).nodew = s.nodew := rfl
@[simp] theorem forgetOrph_len (s : State) : (forgetOrph s).len = s.len := rfl
@[simp] theorem forgetOrph_code (s : State) : (forgetOrph s).code = s.code := rfl
@[simp] theorem forgetOrph_wbuf (s : State) : (forgetOrph s).wbuf = s.wbuf := rfl
@[simp] theorem forgetOrph_wcnt (s : State) : (forgetOrph s).wcnt = s.wcnt := rfl
@[simp] theorem forgetOrph_rbuf (s : State) : (forgetOrph s).rbuf = s.rbuf := rfl
@[simp] theorem forgetOrph_rcnt (s : State) : (forgetOrph s).rcnt = s.rcnt := rfl
@[simp] theorem forgetOrph_engine (s : State) : (forgetOrph s).engine = s.engine := rfl
@[simp] theorem forgetOrph_orph (s : State) : (forgetOrph s).orph = (Config.freeOrph s.draws).take 256 := rfl
@[simp] theorem forgetOrph_depth (s : State) : (forgetOrph s).depth = s.depth := rfl
@[simp] theorem forgetOrph_acc (s : State) : (forgetOrph s).acc = s.acc := rfl
@[simp] theorem forgetOrph_dstate (s : State) : (forgetOrph s).dstate = s.dstate := rfl
@[simp] theorem forgetOrph_outq (s : State) : (forgetOrph s).outq = s.outq := rfl
@[simp] theorem forgetOrph_source (s : State) : (forgetOrph s).source = s.source := rfl
@[simp] theorem forgetOrph_sunk (s : State) : (forgetOrph s).sunk = s.sunk := rfl
@[simp] theorem forgetOrph_agenda (s : State) : (forgetOrph s).agenda = s.agenda := rfl
@[simp] theorem forgetOrph_reads (s : State) : (forgetOrph s).reads = s.reads := rfl
@[simp] theorem forgetOrph_program (s : State) : (forgetOrph s).program = s.program := rfl
@[simp] theorem forgetOrph_bindings (s : State) : (forgetOrph s).bindings = s.bindings := rfl
@[simp] theorem forgetOrph_checks (s : State) : (forgetOrph s).checks = s.checks := rfl
@[simp] theorem forgetOrph_draws (s : State) : (forgetOrph s).draws = s.draws + 1 := rfl

/-! ### forgetScratch -/

@[simp] theorem forgetScratch_done (s : State) : (forgetScratch s).done = s.done := rfl
@[simp] theorem forgetScratch_err (s : State) : (forgetScratch s).err = s.err := rfl
@[simp] theorem forgetScratch_dropped (s : State) : (forgetScratch s).dropped = s.dropped := rfl
@[simp] theorem forgetScratch_treeValid (s : State) : (forgetScratch s).treeValid = s.treeValid := rfl
@[simp] theorem forgetScratch_tableValid (s : State) : (forgetScratch s).tableValid = s.tableValid := rfl
@[simp] theorem forgetScratch_op (s : State) : (forgetScratch s).op = s.op := rfl
@[simp] theorem forgetScratch_errCode (s : State) : (forgetScratch s).errCode = s.errCode := rfl
@[simp] theorem forgetScratch_errInfo (s : State) : (forgetScratch s).errInfo = s.errInfo := rfl
@[simp] theorem forgetScratch_result (s : State) : (forgetScratch s).result = s.result := rfl
@[simp] theorem forgetScratch_irqEn (s : State) : (forgetScratch s).irqEn = s.irqEn := rfl
@[simp] theorem forgetScratch_weight (s : State) : (forgetScratch s).weight = s.weight := rfl
@[simp] theorem forgetScratch_node (s : State) : (forgetScratch s).node = s.node := rfl
@[simp] theorem forgetScratch_nodew (s : State) : (forgetScratch s).nodew = s.nodew := rfl
@[simp] theorem forgetScratch_len (s : State) : (forgetScratch s).len = s.len := rfl
@[simp] theorem forgetScratch_code (s : State) : (forgetScratch s).code = s.code := rfl
@[simp] theorem forgetScratch_wbuf (s : State) : (forgetScratch s).wbuf = s.wbuf := rfl
@[simp] theorem forgetScratch_wcnt (s : State) : (forgetScratch s).wcnt = s.wcnt := rfl
@[simp] theorem forgetScratch_rbuf (s : State) : (forgetScratch s).rbuf = s.rbuf := rfl
@[simp] theorem forgetScratch_rcnt (s : State) : (forgetScratch s).rcnt = s.rcnt := rfl
@[simp] theorem forgetScratch_engine (s : State) : (forgetScratch s).engine = s.engine := rfl
@[simp] theorem forgetScratch_orph (s : State) : (forgetScratch s).orph = s.orph := rfl
@[simp] theorem forgetScratch_depth (s : State) : (forgetScratch s).depth = Config.freeDepth s.draws := rfl
@[simp] theorem forgetScratch_acc (s : State) : (forgetScratch s).acc = Config.freeAcc s.draws := rfl
@[simp] theorem forgetScratch_dstate (s : State) : (forgetScratch s).dstate = s.dstate := rfl
@[simp] theorem forgetScratch_outq (s : State) : (forgetScratch s).outq = s.outq := rfl
@[simp] theorem forgetScratch_source (s : State) : (forgetScratch s).source = s.source := rfl
@[simp] theorem forgetScratch_sunk (s : State) : (forgetScratch s).sunk = s.sunk := rfl
@[simp] theorem forgetScratch_agenda (s : State) : (forgetScratch s).agenda = s.agenda := rfl
@[simp] theorem forgetScratch_reads (s : State) : (forgetScratch s).reads = s.reads := rfl
@[simp] theorem forgetScratch_program (s : State) : (forgetScratch s).program = s.program := rfl
@[simp] theorem forgetScratch_bindings (s : State) : (forgetScratch s).bindings = s.bindings := rfl
@[simp] theorem forgetScratch_checks (s : State) : (forgetScratch s).checks = s.checks := rfl
@[simp] theorem forgetScratch_draws (s : State) : (forgetScratch s).draws = s.draws + 1 := rfl

/-! ### withBuilder -/

@[simp] theorem withBuilder_done (s : State) (b : Builder) : (s.withBuilder b).done = s.done := rfl
@[simp] theorem withBuilder_err (s : State) (b : Builder) : (s.withBuilder b).err = s.err := rfl
@[simp] theorem withBuilder_dropped (s : State) (b : Builder) : (s.withBuilder b).dropped = s.dropped := rfl
@[simp] theorem withBuilder_treeValid (s : State) (b : Builder) : (s.withBuilder b).treeValid = s.treeValid := rfl
@[simp] theorem withBuilder_tableValid (s : State) (b : Builder) : (s.withBuilder b).tableValid = s.tableValid := rfl
@[simp] theorem withBuilder_op (s : State) (b : Builder) : (s.withBuilder b).op = s.op := rfl
@[simp] theorem withBuilder_errCode (s : State) (b : Builder) : (s.withBuilder b).errCode = s.errCode := rfl
@[simp] theorem withBuilder_errInfo (s : State) (b : Builder) : (s.withBuilder b).errInfo = s.errInfo := rfl
@[simp] theorem withBuilder_result (s : State) (b : Builder) : (s.withBuilder b).result = s.result := rfl
@[simp] theorem withBuilder_irqEn (s : State) (b : Builder) : (s.withBuilder b).irqEn = s.irqEn := rfl
@[simp] theorem withBuilder_weight (s : State) (b : Builder) : (s.withBuilder b).weight = s.weight := rfl
@[simp] theorem withBuilder_node (s : State) (b : Builder) : (s.withBuilder b).node = b.node := rfl
@[simp] theorem withBuilder_nodew (s : State) (b : Builder) : (s.withBuilder b).nodew = b.nodew := rfl
@[simp] theorem withBuilder_len (s : State) (b : Builder) : (s.withBuilder b).len = s.len := rfl
@[simp] theorem withBuilder_code (s : State) (b : Builder) : (s.withBuilder b).code = s.code := rfl
@[simp] theorem withBuilder_wbuf (s : State) (b : Builder) : (s.withBuilder b).wbuf = s.wbuf := rfl
@[simp] theorem withBuilder_wcnt (s : State) (b : Builder) : (s.withBuilder b).wcnt = s.wcnt := rfl
@[simp] theorem withBuilder_rbuf (s : State) (b : Builder) : (s.withBuilder b).rbuf = s.rbuf := rfl
@[simp] theorem withBuilder_rcnt (s : State) (b : Builder) : (s.withBuilder b).rcnt = s.rcnt := rfl
@[simp] theorem withBuilder_engine (s : State) (b : Builder) : (s.withBuilder b).engine = s.engine := rfl
@[simp] theorem withBuilder_orph (s : State) (b : Builder) : (s.withBuilder b).orph = b.orph := rfl
@[simp] theorem withBuilder_depth (s : State) (b : Builder) : (s.withBuilder b).depth = s.depth := rfl
@[simp] theorem withBuilder_acc (s : State) (b : Builder) : (s.withBuilder b).acc = s.acc := rfl
@[simp] theorem withBuilder_dstate (s : State) (b : Builder) : (s.withBuilder b).dstate = s.dstate := rfl
@[simp] theorem withBuilder_outq (s : State) (b : Builder) : (s.withBuilder b).outq = s.outq := rfl
@[simp] theorem withBuilder_source (s : State) (b : Builder) : (s.withBuilder b).source = s.source := rfl
@[simp] theorem withBuilder_sunk (s : State) (b : Builder) : (s.withBuilder b).sunk = s.sunk := rfl
@[simp] theorem withBuilder_agenda (s : State) (b : Builder) : (s.withBuilder b).agenda = s.agenda := rfl
@[simp] theorem withBuilder_reads (s : State) (b : Builder) : (s.withBuilder b).reads = s.reads := rfl
@[simp] theorem withBuilder_program (s : State) (b : Builder) : (s.withBuilder b).program = s.program := rfl
@[simp] theorem withBuilder_bindings (s : State) (b : Builder) : (s.withBuilder b).bindings = s.bindings := rfl
@[simp] theorem withBuilder_checks (s : State) (b : Builder) : (s.withBuilder b).checks = s.checks := rfl
@[simp] theorem withBuilder_draws (s : State) (b : Builder) : (s.withBuilder b).draws = s.draws := rfl

/-! ### withExtractor -/

@[simp] theorem withExtractor_done (s : State) (x : Extractor) : (s.withExtractor x).done = s.done := rfl
@[simp] theorem withExtractor_err (s : State) (x : Extractor) : (s.withExtractor x).err = s.err := rfl
@[simp] theorem withExtractor_dropped (s : State) (x : Extractor) : (s.withExtractor x).dropped = s.dropped := rfl
@[simp] theorem withExtractor_treeValid (s : State) (x : Extractor) : (s.withExtractor x).treeValid = s.treeValid := rfl
@[simp] theorem withExtractor_tableValid (s : State) (x : Extractor) : (s.withExtractor x).tableValid = s.tableValid := rfl
@[simp] theorem withExtractor_op (s : State) (x : Extractor) : (s.withExtractor x).op = s.op := rfl
@[simp] theorem withExtractor_errCode (s : State) (x : Extractor) : (s.withExtractor x).errCode = s.errCode := rfl
@[simp] theorem withExtractor_errInfo (s : State) (x : Extractor) : (s.withExtractor x).errInfo = s.errInfo := rfl
@[simp] theorem withExtractor_result (s : State) (x : Extractor) : (s.withExtractor x).result = s.result := rfl
@[simp] theorem withExtractor_irqEn (s : State) (x : Extractor) : (s.withExtractor x).irqEn = s.irqEn := rfl
@[simp] theorem withExtractor_weight (s : State) (x : Extractor) : (s.withExtractor x).weight = s.weight := rfl
@[simp] theorem withExtractor_node (s : State) (x : Extractor) : (s.withExtractor x).node = s.node := rfl
@[simp] theorem withExtractor_nodew (s : State) (x : Extractor) : (s.withExtractor x).nodew = s.nodew := rfl
@[simp] theorem withExtractor_len (s : State) (x : Extractor) : (s.withExtractor x).len = x.len := rfl
@[simp] theorem withExtractor_code (s : State) (x : Extractor) : (s.withExtractor x).code = x.code := rfl
@[simp] theorem withExtractor_wbuf (s : State) (x : Extractor) : (s.withExtractor x).wbuf = s.wbuf := rfl
@[simp] theorem withExtractor_wcnt (s : State) (x : Extractor) : (s.withExtractor x).wcnt = s.wcnt := rfl
@[simp] theorem withExtractor_rbuf (s : State) (x : Extractor) : (s.withExtractor x).rbuf = s.rbuf := rfl
@[simp] theorem withExtractor_rcnt (s : State) (x : Extractor) : (s.withExtractor x).rcnt = s.rcnt := rfl
@[simp] theorem withExtractor_engine (s : State) (x : Extractor) : (s.withExtractor x).engine = s.engine := rfl
@[simp] theorem withExtractor_orph (s : State) (x : Extractor) : (s.withExtractor x).orph = s.orph := rfl
@[simp] theorem withExtractor_depth (s : State) (x : Extractor) : (s.withExtractor x).depth = x.depth := rfl
@[simp] theorem withExtractor_acc (s : State) (x : Extractor) : (s.withExtractor x).acc = x.acc := rfl
@[simp] theorem withExtractor_dstate (s : State) (x : Extractor) : (s.withExtractor x).dstate = s.dstate := rfl
@[simp] theorem withExtractor_outq (s : State) (x : Extractor) : (s.withExtractor x).outq = s.outq := rfl
@[simp] theorem withExtractor_source (s : State) (x : Extractor) : (s.withExtractor x).source = s.source := rfl
@[simp] theorem withExtractor_sunk (s : State) (x : Extractor) : (s.withExtractor x).sunk = s.sunk := rfl
@[simp] theorem withExtractor_agenda (s : State) (x : Extractor) : (s.withExtractor x).agenda = s.agenda := rfl
@[simp] theorem withExtractor_reads (s : State) (x : Extractor) : (s.withExtractor x).reads = s.reads := rfl
@[simp] theorem withExtractor_program (s : State) (x : Extractor) : (s.withExtractor x).program = s.program := rfl
@[simp] theorem withExtractor_bindings (s : State) (x : Extractor) : (s.withExtractor x).bindings = s.bindings := rfl
@[simp] theorem withExtractor_checks (s : State) (x : Extractor) : (s.withExtractor x).checks = s.checks := rfl
@[simp] theorem withExtractor_draws (s : State) (x : Extractor) : (s.withExtractor x).draws = s.draws := rfl

/-! ### offer -/

@[simp] theorem offer_done (t : InToken) (s : State) : (offer t s).done = s.done := rfl
@[simp] theorem offer_err (t : InToken) (s : State) : (offer t s).err = s.err := rfl
@[simp] theorem offer_dropped (t : InToken) (s : State) : (offer t s).dropped = s.dropped := rfl
@[simp] theorem offer_treeValid (t : InToken) (s : State) : (offer t s).treeValid = s.treeValid := rfl
@[simp] theorem offer_tableValid (t : InToken) (s : State) : (offer t s).tableValid = s.tableValid := rfl
@[simp] theorem offer_op (t : InToken) (s : State) : (offer t s).op = s.op := rfl
@[simp] theorem offer_errCode (t : InToken) (s : State) : (offer t s).errCode = s.errCode := rfl
@[simp] theorem offer_errInfo (t : InToken) (s : State) : (offer t s).errInfo = s.errInfo := rfl
@[simp] theorem offer_result (t : InToken) (s : State) : (offer t s).result = s.result := rfl
@[simp] theorem offer_irqEn (t : InToken) (s : State) : (offer t s).irqEn = s.irqEn := rfl
@[simp] theorem offer_weight (t : InToken) (s : State) : (offer t s).weight = s.weight := rfl
@[simp] theorem offer_node (t : InToken) (s : State) : (offer t s).node = s.node := rfl
@[simp] theorem offer_nodew (t : InToken) (s : State) : (offer t s).nodew = s.nodew := rfl
@[simp] theorem offer_len (t : InToken) (s : State) : (offer t s).len = s.len := rfl
@[simp] theorem offer_code (t : InToken) (s : State) : (offer t s).code = s.code := rfl
@[simp] theorem offer_wbuf (t : InToken) (s : State) : (offer t s).wbuf = s.wbuf := rfl
@[simp] theorem offer_wcnt (t : InToken) (s : State) : (offer t s).wcnt = s.wcnt := rfl
@[simp] theorem offer_rbuf (t : InToken) (s : State) : (offer t s).rbuf = s.rbuf := rfl
@[simp] theorem offer_rcnt (t : InToken) (s : State) : (offer t s).rcnt = s.rcnt := rfl
@[simp] theorem offer_engine (t : InToken) (s : State) : (offer t s).engine = s.engine := rfl
@[simp] theorem offer_orph (t : InToken) (s : State) : (offer t s).orph = s.orph := rfl
@[simp] theorem offer_depth (t : InToken) (s : State) : (offer t s).depth = s.depth := rfl
@[simp] theorem offer_acc (t : InToken) (s : State) : (offer t s).acc = s.acc := rfl
@[simp] theorem offer_dstate (t : InToken) (s : State) : (offer t s).dstate = s.dstate := rfl
@[simp] theorem offer_outq (t : InToken) (s : State) : (offer t s).outq = s.outq := rfl
@[simp] theorem offer_source (t : InToken) (s : State) : (offer t s).source = s.source ++ [t] := rfl
@[simp] theorem offer_sunk (t : InToken) (s : State) : (offer t s).sunk = s.sunk := rfl
@[simp] theorem offer_agenda (t : InToken) (s : State) : (offer t s).agenda = s.agenda := rfl
@[simp] theorem offer_reads (t : InToken) (s : State) : (offer t s).reads = s.reads := rfl
@[simp] theorem offer_program (t : InToken) (s : State) : (offer t s).program = s.program := rfl
@[simp] theorem offer_bindings (t : InToken) (s : State) : (offer t s).bindings = s.bindings := rfl
@[simp] theorem offer_checks (t : InToken) (s : State) : (offer t s).checks = s.checks := rfl
@[simp] theorem offer_draws (t : InToken) (s : State) : (offer t s).draws = s.draws := rfl

end Sys2Proof.Machine
end

