-- ==== Sys2Proof/Laws/Ops.lean ====
section
/-! SUPPORT. Laws/Ops.lean: for each shared operation, once, everything it can do. -/

namespace Sys2Proof.Machine

/-! ## Port primitives -/

theorem inTake_cases {k : InToken → State → Result} {s : State} {r : Result} (h : inTake k s = r) :
    (s.source = [] ∧ r = .next s) ∨
      ∃ t rest, s.source = t :: rest ∧ r = k t { s with source := rest } := by
  unfold inTake at h
  split at h
  · exact .inl ⟨‹_›, h.symm⟩
  · exact .inr ⟨_, _, ‹_›, h.symm⟩

theorem inTake_nil {k : InToken → State → Result} {s : State} (h : s.source = []) : inTake k s = .next s := by
  simp [inTake, h]

theorem inTake_cons {k : InToken → State → Result} {s : State} {t : InToken} {rest : List InToken}
    (h : s.source = t :: rest) : inTake k s = k t { s with source := rest } := by
  simp [inTake, h]

theorem outPut_cases {t : OutToken} {k : State → Result} {s : State} {r : Result} (h : outPut t k s = r) :
    (s.outq.length < Config.outCap ∧ r = k { s with outq := s.outq ++ [t] }) ∨
      (¬ s.outq.length < Config.outCap ∧ r = .next s) := by
  unfold outPut at h
  split at h
  · exact .inl ⟨‹_›, h.symm⟩
  · exact .inr ⟨‹_›, h.symm⟩

theorem outPut_room {t : OutToken} {k : State → Result} {s : State} (h : s.outq.length < Config.outCap) :
    outPut t k s = k { s with outq := s.outq ++ [t] } := by
  simp [outPut, h]

theorem outPut_full {t : OutToken} {k : State → Result} {s : State} (h : ¬ s.outq.length < Config.outCap) :
    outPut t k s = .next s := by
  simp [outPut, h]

/-! ## Bits -/

theorem flushDue_iff (s : State) : flushDue s = true ↔ s.wcnt = 7#3 := by simp [flushDue]

theorem putBit_cases (i : Instr) (k : AfterOut) (b : Bool) (go : State → State) (s : State) :
    (s.wcnt = 7#3 ∧
      putBit i k b go s = enter i (.outPut (.byte (shiftIn b s).wbuf) k) (shiftIn b s)) ∨
      (s.wcnt ≠ 7#3 ∧ putBit i k b go s = go (shiftIn b s)) := by
  by_cases h : s.wcnt = 7#3
  · exact .inl ⟨h, by simp [putBit, flushDue, h]⟩
  · exact .inr ⟨h, by simp [putBit, flushDue, h]⟩

/-! ## Errors -/

theorem abortsStream_iff (e : ErrorKind) (i : Instr) :
    abortsStream e i = true ↔
      (e = .truncatedStream ∨ e = .unalignedWriteClose) ∧ (i = .encode ∨ i = .decode ∨ i = .wclose) := by
  simp [abortsStream, or_assoc]

theorem raiseError_cases (running : Option Instr) (e : ErrorKind) (info : Word) (s : State) :
    (∃ i, running = some i ∧ abortsStream e i = true ∧
      raiseError running e info s = enter i (.outPut .abort (.aborted e info)) s) ∨
      ((∀ i, running = some i → abortsStream e i = false) ∧ raiseError running e info s = latch e info s) := by
  cases running with
  | none => exact .inr ⟨by simp, rfl⟩
  | some i =>
    by_cases h : abortsStream e i = true
    · exact .inl ⟨i, rfl, h, by simp [raiseError, h]⟩
    · exact .inr ⟨by simpa using h, by simp [raiseError, h]⟩

theorem ErrorKind.code_range (e : ErrorKind) : 1 ≤ e.code.toNat ∧ e.code.toNat ≤ 6 := by
  cases e <;> decide

/-! ## The tree check -/

theorem checkedTree_pass {i : Instr} {k : State → Result} {s : State} (h : treeCheck s.node = none) :
    checkedTree i k s = k (validity .checkPasses s) := by
  simp [checkedTree, h]

theorem checkedTree_fail {i : Instr} {k : State → Result} {s : State} {n : Nat} {c : TreeCond}
    (h : treeCheck s.node = some (n, c)) :
    checkedTree i k s = .next (latch .malformedTree (malformedInfo n c) (validity .checkFails s)) := by
  simp [checkedTree, h, raiseError, abortsStream]

theorem treeCheckFrom_none {i : Nat} {l : List Node} :
    treeCheckFrom i l = none ↔ ∀ j (h : j < l.length), nodeCond (i + j) l[j] = none := by
  induction l generalizing i with
  | nil => simp [treeCheckFrom]
  | cons n rest ih =>
    simp only [treeCheckFrom]
    constructor
    · intro h j hj
      split at h
      · simp at h
      · cases j with
        | zero => simpa using ‹nodeCond i n = none›
        | succ j =>
          have := (ih.mp h) j (by simpa using hj)
          simpa [Nat.add_assoc, Nat.add_comm 1 j] using this
    · intro h
      have h0 := h 0 (by simp)
      simp only [Nat.add_zero, List.getElem_cons_zero] at h0
      rw [h0]
      refine ih.mpr (fun j hj => ?_)
      have := h (j + 1) (by simpa using hj)
      simpa [Nat.add_assoc, Nat.add_comm 1 j] using this

theorem treeCheckFrom_some {i : Nat} {l : List Node} {k : Nat} {c : TreeCond} :
    treeCheckFrom i l = some (k, c) ↔
      ∃ j, ∃ h : j < l.length, k = i + j ∧ nodeCond (i + j) l[j] = some c ∧
        ∀ m (hm : m < j), nodeCond (i + m) (l[m]'(by omega)) = none := by
  induction l generalizing i with
  | nil => simp [treeCheckFrom]
  | cons n rest ih =>
    simp only [treeCheckFrom]
    cases hn : nodeCond i n with
    | some c' =>
      constructor
      · intro h
        simp only [Option.some.injEq, Prod.mk.injEq] at h
        obtain ⟨rfl, rfl⟩ := h
        exact ⟨0, by simp, by simp, by simpa using hn, by simp⟩
      · rintro ⟨j, hj, rfl, hc, hm⟩
        cases j with
        | zero => simp_all
        | succ j =>
          have := hm 0 (by omega)
          simp [hn] at this
    | none =>
      simp only
      rw [ih]
      constructor
      · rintro ⟨j, hj, rfl, hc, hm⟩
        refine ⟨j + 1, by simpa using hj, by omega, ?_, ?_⟩
        · simpa [Nat.add_assoc, Nat.add_comm 1 j] using hc
        · intro m hm'
          cases m with
          | zero => simpa using hn
          | succ m =>
            have := hm m (by omega)
            simpa [Nat.add_assoc, Nat.add_comm 1 m] using this
      · rintro ⟨j, hj, rfl, hc, hm⟩
        cases j with
        | zero => simp [hn] at hc
        | succ j =>
          refine ⟨j, by simpa using hj, by omega, ?_, ?_⟩
          · simpa [Nat.add_assoc, Nat.add_comm 1 j] using hc
          · intro m hm'
            have := hm (m + 1) (by omega)
            simpa [Nat.add_assoc, Nat.add_comm 1 m] using this

/-- A passing arena, node by node. -/
theorem treeCheck_none (a : Vector Node 511) :
    treeCheck a = none ↔ ∀ i (h : i < 511), nodeCond i a[i] = none := by
  rw [treeCheck, treeCheckFrom_none]
  simp

/-- The lowest failing node and its condition. -/
theorem treeCheck_some (a : Vector Node 511) (i : Nat) (c : TreeCond) :
    treeCheck a = some (i, c) ↔
      ∃ h : i < 511, nodeCond i a[i] = some c ∧ ∀ j (hj : j < i), nodeCond j a[j] = none := by
  rw [treeCheck, treeCheckFrom_some]
  constructor
  · rintro ⟨j, hj, rfl, hc, hm⟩
    have hj' : j < 511 := by simpa using hj
    refine ⟨by omega, ?_, ?_⟩
    · simpa using hc
    · intro m hm'
      have := hm m (by omega)
      simpa using this
  · rintro ⟨h, hc, hm⟩
    refine ⟨i, by simpa using h, by simp, by simpa using hc, ?_⟩
    intro m hm'
    have := hm m hm'
    simpa using this

end Sys2Proof.Machine
end

