-- ==== Sys2Proof/Laws/PerInstr.lean ====
section
/-! SUPPORT. Laws/PerInstr.lean: statements about every command as syntax, one lemma per constructor. -/

/-- R92, R93: the word of a command is legal and its opcode is below 0x0A. -/
abbrev Sys2Proof.Laws.EncodedWordIsLegal.Statement (i : Sys2Proof.Instr) : Prop :=
  Sys2Proof.illegal (Sys2Proof.encode i) = false ∧ (Sys2Proof.opcode i).toNat < 0x0A

namespace Sys2Proof.Laws.EncodedWordIsLegal

theorem nop : Statement .nop := by decide
theorem build : Statement .build := by decide
theorem check : Statement .check := by decide
theorem extract : Statement .extract := by decide
theorem encode : Statement .encode := by decide
theorem decode : Statement .decode := by decide
theorem wbit (b : Bool) : Statement (.wbit b) := by cases b <;> decide
theorem wclose : Statement .wclose := by decide
theorem rbit : Statement .rbit := by decide
theorem clear : Statement .clear := by decide

end Sys2Proof.Laws.EncodedWordIsLegal
end

