-- ==== Sys2Proof/Laws/Window.lean ====
section
/-! SUPPORT. Laws/Window.lean: what a host access and a move can do, once. -/

namespace Sys2Proof.Machine

/-- R61: a well-formed access is carried out, any other is refused. -/
theorem hostAccess_cases (a : HostAccess) (s : State) :
    (a.wf = false ∧ (hostAccess a s = .refused .accessWidth ∨ hostAccess a s = .refused .accessAlignment)) ∨
      (a.wf = true ∧ a.kind = .read ∧ hostAccess a s = .next (hostRead a.offset s)) ∨
      (a.wf = true ∧ ∃ v, a.kind = .write v ∧ hostAccess a s = .next (hostWrite a.offset v s)) := by
  by_cases hw : a.widthOk = true <;> by_cases ha : a.aligned = true <;> cases hk : a.kind <;>
    simp_all [hostAccess, HostAccess.wf]

/-- R220: what presenting a word does. -/
theorem present_cases (v : Word) (s : State) :
    (present v s = drop s ∧ (s.busy = true ∨ s.err = true)) ∨
      (s.busy = false ∧ (s.err = false ∨ v = encode .clear) ∧
        ((∃ r, decode v = .error r ∧ present v s = latch .illegalCommand v { s with done := false }) ∨
          ∃ i, decode v = .ok i ∧ present v s = accept v s)) := by
  unfold present
  split
  · exact .inl ⟨rfl, .inl ‹_›⟩
  · split
    · rename_i h
      exact .inl ⟨rfl, .inr h.1⟩
    · rename_i hb he
      refine .inr ⟨by simpa using hb, ?_, ?_⟩
      · by_cases h : s.err = true
        · exact .inr (by simpa [h] using he)
        · exact .inl (by simpa using h)
      · split
        · exact .inl ⟨_, ‹_›, rfl⟩
        · exact .inr ⟨_, ‹_›, rfl⟩

/-- R37: the engine's move, by the engine state. -/
theorem engineStep_cases (s : State) :
    (s.engine = .idle ∧ engineStep s = .next s) ∨
      ∃ w p, s.engine = .run w p ∧
        ((∃ i, decode w = .ok i ∧ engineStep s = exec i s) ∨
          ((∃ e, decode w = .error e) ∧ engineStep s = .fault .illegalEngineWord)) := by
  cases h : s.engine with
  | idle => exact .inl ⟨rfl, by simp [engineStep, fetch, h]⟩
  | run w p =>
    refine .inr ⟨w, p, rfl, ?_⟩
    cases hd : decode w with
    | ok i => exact .inl ⟨i, rfl, by simp [engineStep, fetch, h, hd]⟩
    | error e => exact .inr ⟨⟨e, rfl⟩, by simp [engineStep, fetch, h, hd]⟩

theorem busy_iff (s : State) : s.busy = true ↔ s.engine ≠ .idle := by
  cases h : s.engine <;> simp [State.busy, h]

end Sys2Proof.Machine
end

