-- ==== Sys2Proof/Laws/Program.lean ====
section
/-! SUPPORT. Laws/Program.lean: what a move of the host's program can do, once. -/

namespace Sys2Proof.Machine

/-- A statement's move changes only the host's own fields: its program, its bindings and its checks. -/
theorem advance_frame (st : HostStmt) (rest : List HostStmt) (v : Word) (s : State) :
    advance st rest v s = { s with
      program := (advance st rest v s).program, bindings := (advance st rest v s).bindings
      checks := (advance st rest v s).checks } := by
  cases st <;> rfl

/-- What a read gives does not depend on the host's own fields. -/
@[simp] theorem readValue_advance (a : Offset) (st : HostStmt) (rest : List HostStmt) (v : Word) (s : State) :
    readValue a (advance st rest v s) = readValue a s := by
  rw [advance_frame]
  rfl

/-- Only WAIT and RUN leave something of themselves to do. -/
theorem advance_program (st : HostStmt) (rest : List HostStmt) (v : Word) (s : State) :
    (advance st rest v s).program = rest ∨
      ((advance st rest v s).program = .wait :: rest ∧ (st = .wait ∧ v.getLsbD 0 = true ∨ ∃ i, st = .run i)) := by
  cases st with
  | wait =>
    by_cases h : v.getLsbD 0 = true
    · exact .inr ⟨if_pos h, .inl ⟨rfl, h⟩⟩
    · exact .inl (if_neg h)
  | run i => simp [advance]
  | _ => exact .inl rfl

theorem hostMove_nil {s : State} (h : s.program = []) : hostMove s = .next s := by simp [hostMove, h]

/-- A move of the program passes over a statement without an access, or makes its access. -/
theorem hostMove_cons {s : State} {st : HostStmt} {rest : List HostStmt} (h : s.program = st :: rest) :
    (stmtAccess st = none ∧ hostMove s = .next (advance st rest 0#32 s)) ∨
      ∃ a, stmtAccess st = some a ∧ hostMove s = hostAccess a (advance st rest (readValue a.offset s) s) := by
  cases ha : stmtAccess st with
  | none => exact .inl ⟨rfl, by simp [hostMove, h, ha]⟩
  | some a => exact .inr ⟨a, rfl, by simp [hostMove, h, ha]⟩

end Sys2Proof.Machine
end

