-- ==== Sys2Proof/Laws/TreeBuilder.lean ====
section
/-! SUPPORT. Laws/TreeBuilder.lean: what the loops of BUILD write, index by index. -/

namespace Sys2Proof.Machine

/-- A merge writes node `t` alone. -/
theorem merge_node_ne (t : Nat) (b : Builder) (i : Nat) (h : i ≠ t) : (merge t b).node[i]? = b.node[i]? := by
  simp [merge, Ne.symm h]

theorem merge_nodew_ne (t : Nat) (b : Builder) (i : Nat) (h : i ≠ t) : (merge t b).nodew[i]? = b.nodew[i]? := by
  simp [merge, Ne.symm h]

/-- The merges that write nodes below `n` leave the others alone. -/
theorem mergeDown_above (n : Nat) (b : Builder) (i : Nat) (h : n ≤ i) :
    (mergeDown n b).node[i]? = b.node[i]? ∧ (mergeDown n b).nodew[i]? = b.nodew[i]? := by
  induction n generalizing b with
  | zero => exact ⟨rfl, rfl⟩
  | succ n ih =>
    have := ih (merge n b) (by omega)
    exact ⟨this.1.trans (merge_node_ne n b i (by omega)), this.2.trans (merge_nodew_ne n b i (by omega))⟩

/-- The leaves of symbols below `n`, once written. -/
theorem writeLeaves_leaf (w : Vector Word 256) (b : Builder) (n k : Nat) (hn : n ≤ 256) (hk : k < n) :
    (writeLeaves w n b).node[255 + k]? = some (Node.leaf (BitVec.ofNat 8 k)) ∧
      (writeLeaves w n b).nodew[255 + k]? = some ((w[k]?.getD 0#32).setWidth 40) := by
  induction n with
  | zero => omega
  | succ n ih =>
    simp only [writeLeaves, writeLeaf, Vector.getElem?_setIfInBounds]
    by_cases h : k = n
    · subst h
      have : 255 + k < 511 := by omega
      simp [this]
    · have := ih (by omega) (by omega)
      simp [show ¬ n = k by omega, this.1, this.2]

/-- R118: after BUILD, symbol `k`'s leaf stands at `255 + k` with its weight (R114). -/
theorem buildTree_leaf (w : Vector Word 256) (b : Builder) (k : Nat) (hk : k < 256) :
    (buildTree w b).node[255 + k]? = some (Node.leaf (BitVec.ofNat 8 k)) ∧
      (buildTree w b).nodew[255 + k]? = some ((w[k]?.getD 0#32).setWidth 40) := by
  have h := mergeDown_above 255 { writeLeaves w 256 b with orph := firstOrphans } (255 + k) (by omega)
  have h' := writeLeaves_leaf w b 256 k (by omega) hk
  exact ⟨h.1.trans h'.1, h.2.trans h'.2⟩

/-- R112: the scan answers one of the positions it was given, whose weight none of them is below. -/
theorem scanMin_spec (l : List (Nat × Weight)) (p : Nat) (w : Weight) :
    ∃ v, (scanMin p w l, v) ∈ (p, w) :: l ∧ v ≤ w ∧ ∀ x ∈ l, v ≤ x.2 := by
  induction l generalizing p w with
  | nil => exact ⟨w, by simp [scanMin], BitVec.le_refl w, by simp⟩
  | cons x rest ih =>
    obtain ⟨q, u⟩ := x
    simp only [scanMin]
    split
    · rename_i h
      obtain ⟨v, hv, hle, hall⟩ := ih q u
      refine ⟨v, List.mem_cons_of_mem _ hv, BitVec.le_trans hle (BitVec.le_of_lt h), ?_⟩
      simpa using ⟨hle, fun a b hab => hall (a, b) hab⟩
    · rename_i h
      obtain ⟨v, hv, hle, hall⟩ := ih p w
      refine ⟨v, ?_, hle, ?_⟩
      · rcases List.mem_cons.mp hv with h' | h'
        · exact List.mem_cons.mpr (.inl h')
        · exact List.mem_cons_of_mem _ (List.mem_cons_of_mem _ h')
      · simpa using ⟨BitVec.le_trans hle (BitVec.not_lt.mp h), fun a b hab => hall (a, b) hab⟩

end Sys2Proof.Machine
end

