-- ==== Sys2Proof/Tests/Slice0.lean ====
section
/-! SUPPORT. Tests/Slice0.lean: the model's own tests. Expected values are taken from 95_test_vectors.md or worked out by
hand from the rules; each section names its source. The witnesses at the end show that the hypotheses of the
statements in Certificates/Slice0/Obligations.lean can be met. -/

namespace Sys2Proof.Tests

open Sys2Proof.Machine

/-! ## Helpers: small states -/

/-- The loaded two-leaf arena of 95_test_vectors.md V-C6: I(1, 2), L(0x41), L(0x42). -/
def abArena : Vector Node 511 :=
  ((State.reset.node.set 0 (Node.inner 1#9 2#9)).set 1 (Node.leaf 0x41#8)).set 2 (Node.leaf 0x42#8)

/-- The engine of `s` runs `i` at phase `p`. -/
def at' (i : Instr) (p : Phase) (s : State) : State := { s with engine := .run (encode i) p }

/-- Reset with the two-leaf arena loaded. -/
def abState : State := { State.reset with node := abArena }

/-- V-X5: the table EXTRACT gives for the two-leaf arena: 0x41 has code `0`, 0x42 has code `1`. -/
def abTable : State :=
  { abState with
    treeValid := true, tableValid := true
    len := (State.reset.len.set 0x41 1#8).set 0x42 1#8
    code := State.reset.code.set 0x42 (BitVec.twoPow 256 255) }

/-- A field of the next state, or a default. -/
def after {α : Type} (r : Result) (d : α) (f : State → α) : α :=
  match r with
  | .next s => f s
  | .fault _ => d
  | .refused _ => d

/-- A full OUT queue. -/
def fullState : State := { State.reset with outq := List.replicate Config.outCap .abort }

/-! ## Well-formedness: an ill-formed term for each check (20_memory.md R61) -/

theorem test_wf_width_refused : HostAccess.wf { kind := .read, offset := 0#15, bytes := 2 } = false := by decide
theorem test_wf_alignment_refused : HostAccess.wf { kind := .read, offset := 2#15, bytes := 4 } = false := by decide
theorem test_wf_word_access_accepted : HostAccess.wf { kind := .read, offset := 0x7FFC#15, bytes := 4 } = true := by decide
theorem test_width_outcome : hostAccess { kind := .read, offset := 0#15, bytes := 1 } State.reset = .refused .accessWidth := rfl
theorem test_alignment_outcome :
    hostAccess { kind := .write 1#32, offset := 5#15, bytes := 4 } State.reset = .refused .accessAlignment := rfl

/-! ## Decoding: words of 30_encoding.md R92, bit by bit -/

theorem test_decode_nop : decode 0b00000000000000000000000000000000#32 = .ok .nop := by decide
theorem test_decode_build : decode 0b00000000000000000000000000000001#32 = .ok .build := by decide
theorem test_decode_check : decode 0b00000000000000000000000000000010#32 = .ok .check := by decide
theorem test_decode_extract : decode 0b00000000000000000000000000000011#32 = .ok .extract := by decide
theorem test_decode_encode : decode 0b00000000000000000000000000000100#32 = .ok .encode := by decide
theorem test_decode_decode : decode 0b00000000000000000000000000000101#32 = .ok .decode := by decide
theorem test_decode_wbit0 : decode 0b00000000000000000000000000000110#32 = .ok (.wbit false) := by decide
theorem test_decode_wbit1 : decode 0b00000000000000000000000100000110#32 = .ok (.wbit true) := by decide
theorem test_decode_wclose : decode 0b00000000000000000000000000000111#32 = .ok .wclose := by decide
theorem test_decode_rbit : decode 0b00000000000000000000000000001000#32 = .ok .rbit := by decide
theorem test_decode_clear : decode 0b00000000000000000000000000001001#32 = .ok .clear := by decide

/-- 95_test_vectors.md V-N2, V-N3: illegal words, each rejected by name. -/
theorem test_decode_illegal :
    decode 0x0000000A#32 = .error .opcode ∧ decode 0x000000FF#32 = .error .opcode ∧
    decode 0x00000107#32 = .error .strayB ∧ decode 0x00000200#32 = .error .reservedBits ∧
    decode 0x80000000#32 = .error .reservedBits ∧ decode 0x00000109#32 = .error .strayB := by decide

theorem test_table_word : decodeTableWord 32 0x106 = some (.wbit true) ∧ decodeTableWord 32 0x107 = none := by decide

/-! ## A program's first instruction -/

theorem test_fetch_runs_nop :
    step (State.reset.withFetchWord 32 0) = exec .nop { accept 0#32 State.reset with agenda := [] } := rfl

/-- V-N1: after NOP, STATUS = 0x00000002. -/
theorem test_nop_status : after (step (State.reset.withFetchWord 32 0)) 0#32 statusWord = 0x00000002#32 := by decide

/-- V-N6: CLEAR after a latched error leaves STATUS = 0x0000090A with DROPPED set. -/
theorem test_clear_status :
    after (exec .clear { State.reset with err := true, errCode := 5#4, dropped := true, op := 9#4 }) 0#32 statusWord =
      0x0000090A#32 := by decide

/-! ## BUILD (40_tree_builder.md R112, 95_test_vectors.md) -/

/-- V-B4, second merge: the leaf of symbol 2 (weight 3) stands before node 254 (weight 3): it is found first. -/
theorem test_select_two_tie : selectTwo [(0, 3#40), (1, 4#40), (2, 3#40)] = (0, 2) := by decide
/-- R112: p2 may be lower than p1. -/
theorem test_select_two_order : selectTwo [(0, 7#40), (1, 2#40), (2, 7#40)] = (1, 0) := by decide
/-- R110: the first merge on equal weights gives NODE[254] = 0x800200FF (V-B1) and appends 254. -/
theorem test_first_merge :
    (merge 254 { State.reset.builder with orph := [255#9, 256#9, 257#9] }).node[254].toWord = 0x800200FF#32 ∧
    (merge 254 { State.reset.builder with orph := [255#9, 256#9, 257#9] }).orph = [257#9, 254#9] := by decide +kernel
theorem test_build_flags :
    after (step (State.reset.withFetchWord 32 1)) 0#32 statusWord = 0x00000112#32 := by decide +kernel

/-! ## CHECK (95_test_vectors.md V-C1, V-C4, V-C6) -/

theorem test_check_root_leaf :
    after (step (State.reset.withFetchWord 32 2)) (0#32, 0#32) (fun s => (statusWord s, s.errInfo)) =
      (0x00000204#32, 0x00010000#32) := by decide +kernel
theorem test_check_child_not_above :
    after (exec .check { State.reset with
      node := (State.reset.node.set 0 (Node.inner 1#9 2#9)).set 2 (Node.inner 2#9 3#9) }) 0#32 (fun s => s.errInfo) =
      0x00030002#32 := by decide +kernel

/-! ## EXTRACT (95_test_vectors.md V-X5) -/

theorem test_extract_two_leaves :
    after (exec .extract abState) (0#32, 0#32, 0#32) (fun s =>
      (regValue (.codeLen 0x42#8) s, regValue (.codeBits 0x42#8 0) s, regValue (.codeLen 0#8) s)) =
      (1#32, 0x80000000#32, 0#32) := by decide +kernel
theorem test_extract_wants_a_tree :
    after (step (State.reset.withFetchWord 32 3)) (0#32, 0#32) (fun s => (statusWord s, s.errInfo)) =
      (0x00000304#32, 0x00010000#32) := by decide +kernel

/-! ## WBIT, WCLOSE, RBIT (95_test_vectors.md V-S2, V-S3, V-S4b) -/

theorem test_wbit_first_bit_is_bit_7 :
    after (step (State.reset.withFetchWord 32 0x106)) 0#32 cursorWord = 0x00000180#32 := by decide
/-- R164: with WCNT = 7 the byte is offered on OUT. -/
theorem test_wbit_eighth_bit :
    after (exec (.wbit true) { State.reset with wbuf := 0xFE#8, wcnt := 7#3 }) none offeredOut = some (.byte 0xFF#8) := by
  decide
theorem test_wclose_unaligned :
    after (exec .wclose { State.reset with wbuf := 0x80#8, wcnt := 2#3 }) none offeredOut = some .abort := by decide
theorem test_wclose_emits_end :
    after (exec .wclose (at' .wclose (.outPut .endStream .ended) State.reset)) [] (fun s => s.outq) = [.endStream] := by
  decide
theorem test_rbit_msb_first :
    after (exec .rbit (at' .rbit .inTake { State.reset with source := [.byte 0xA5#8, .endStream] })) (0#32, 0#32)
      (fun s => (regValue .result s, cursorWord s)) = (1#32, 0x07A50000#32) := by decide
theorem test_rbit_fail :
    after (exec .rbit (at' .rbit .inTake { State.reset with source := [.fail] })) (0#32, [])
      (fun s => (s.errInfo, s.outq)) = (0x00000208#32, []) := by decide

/-! ## ENCODE (95_test_vectors.md V-E1, V-E5) -/

theorem test_encode_not_ready :
    after (step (State.reset.withFetchWord 32 4)) (0#32, 0#32) (fun s => (statusWord s, s.errInfo)) =
      (0x00000404#32, 0x00000004#32) := by decide
/-- V-E5: 3 bits `010` are held and no LEN is above 5: ABORT is offered, WBUF = 0x40 stays. -/
theorem test_encode_padding_fails :
    after (exec .encode (at' .encode .inTake { abTable with wbuf := 0x40#8, wcnt := 3#3, source := [.endStream] }))
      (none, 0#8) (fun s => (offeredOut s, s.wbuf)) = (some .abort, 0x40#8) := by decide +kernel

/-! ## DECODE (95_test_vectors.md V-D3) -/

/-- The first bit of 0x55 is 0: symbol 0x41. -/
theorem test_decode_first_symbol :
    after (exec .decode (at' .decode .inTake { abState with source := [.byte 0x55#8] })) none offeredOut =
      some (.byte 0x41#8) := by decide +kernel
/-- The next bit is 1: symbol 0x42. -/
theorem test_decode_next_symbol :
    after (exec .decode (at' .decode (.outPut (.byte 0x41#8) .symbol) { abState with rbuf := 0x55#8, rcnt := 7#3 })) none
      offeredOut = some (.byte 0x42#8) := by decide +kernel

/-! ## The window (95_test_vectors.md V-R5, V-R6, V-N15) -/

theorem test_irq_en_reads_back :
    after (hostAccess (writeRegAccess .irqEn 0xFFFFFFFF#32) State.reset) 0#32 (regValue .irqEn) = 3#32 := by decide
theorem test_node_reserved_bits :
    after (hostAccess (writeRegAccess (.node 0) 0xFC000401#32) State.reset) 0#32 (regValue (.node 0)) =
      0x80000401#32 := by decide +kernel
theorem test_command_dropped_while_busy :
    after (hostAccess (commandAccess .nop) (at' .encode .inTake { abTable with op := 4#4 })) 0#32 statusWord =
      0x00000439#32 := by decide
theorem test_program_offsets :
    offsetOf (.codeLen 0x48#8) = 0x2120#15 ∧ offsetOf (.codeBits 0x42#8 0) = 0x4840#15 ∧
    offsetOf (.weight 0x41#8) = 0x0504#15 := by decide

/-! ## The host's program (30_encoding.md R96, R97; 95_test_vectors.md P1, P3) -/

theorem test_run_writes_the_command_and_waits :
    after (move .hostStmt (State.reset.withProgram [.run .build])) ([], .idle) (fun s => (s.program, s.engine)) =
      ([.wait], .run 1#32 .start) := by decide
/-- R98: WAIT stays while BUSY = 1 and is passed when BUSY = 0. -/
theorem test_wait_polls :
    after (move .hostStmt ((at' .encode .inTake State.reset).withProgram [.wait, .ack])) [] (fun s => s.program) =
      [.wait, .ack] ∧
    after (move .hostStmt (State.reset.withProgram [.wait, .ack])) [] (fun s => s.program) = [.ack] := by decide
/-- P1: `RD STATUS -> s` binds what a later `EXPECT s = 0x00000432` finds. -/
theorem test_read_binds :
    after (move .hostStmt ({ State.reset with done := true, treeValid := true, tableValid := true, op := 4#4 }.withProgram
      [.rd .status "s"])) [] (fun s => s.bindings) = [("s", 0x00000432#32)] := by decide
/-- P1 and P3: EXPECT of a bound name, and of a register; neither makes an access. -/
theorem test_expect :
    after (move .hostStmt ({ State.reset with bindings := [("s", 0x00000432#32)] }.withProgram
      [.expect (.bound "s") 0x00000432#32])) ([], []) (fun s => (s.checks, s.reads)) = ([true], []) ∧
    after (move .hostStmt ({ State.reset with op := 9#4 }.withProgram [.expect (.register .status) 0x00000900#32]))
      ([], []) (fun s => (s.checks, s.reads)) = ([true], []) := by decide

/-! ## Witnesses: the hypotheses of the statements can be met -/

/-- The engine is busy with ENCODE, waiting in InTake (V-N15). -/
def busyState : State := at' .encode .inTake { abTable with op := 4#4 }

/-- An error is latched, and the host is about to write NOP to CMD (V-N5). -/
def errState : State :=
  { State.reset with err := true, errCode := 5#4, errInfo := 0xA#32, agenda := [.host (commandAccess .nop)] }

theorem next_of {r : Result} (h : (match r with | .next _ => true | .fault _ => false | .refused _ => false) = true) :
    ∃ t, r = .next t := by
  cases r with
  | next t => exact ⟨t, rfl⟩
  | fault f => simp at h
  | refused f => simp at h

theorem room_reset : hasRoom State.reset := by show (0 < Config.outCap); simp [Config.outCap]

theorem full_has_no_room : ¬ hasRoom fullState := by simp [hasRoom, fullState]

/-- A state of empty cursors and an empty table meets the invariant if its latch, flags, queue and engine do. -/
theorem inv_of_fresh (s : State) (hl : ErrorLatchOk s) (hd : ¬ (s.done = true ∧ s.err = true)) (hv : ValidityOk s)
    (hc : s.code = Vector.replicate 256 0#256) (hw : s.wbuf = 0#8) (hq : s.outq.length ≤ Config.outCap)
    (he : EngineOk s) : MachineInv s where
  errorLatch := hl
  doneErr := hd
  validity := hv
  tableTail := by intro x j _; simp [hc, codeAt]
  writeCursor := .inr (by intro j _; simp [hw])
  queue := hq
  engine := he

/-- Hypotheses of IllegalWordsRaiseIllegalCommand: one word for each clause of R93, at its boundaries. -/
theorem witness_illegal_words :
    [0x00000200#32, 0x80000000#32, 0x0000000A#32, 0x000000FF#32, 0x00000107#32, 0x00000100#32].all
      (fun v => illegal v && (match decode v with | .ok _ => false | .error _ => true)) = true ∧
    State.reset.busy = false ∧ State.reset.err = false := by decide +kernel

/-- Hypotheses of RegisterMapRows: the ends of the reserved ranges. -/
theorem witness_reserved_ranges :
    [0x0024#15, 0x03FC#15, 0x0FFC#15, 0x17FC#15, 0x1FFC#15, 0x2400#15, 0x3FFC#15, 0x6000#15, 0x7FFC#15].all
      (fun a => regOf a == none) = true ∧
    regOf 0x0020#15 = some .cursor ∧ regOf 0x0400#15 = some (.weight 0#8) ∧ regOf 0x07FC#15 = some (.weight 255#8) ∧
    regOf 0x0FF8#15 = some (.node 510) ∧ regOf 0x17F8#15 = some (.nodeWLo 510) ∧
    regOf 0x1FF8#15 = some (.nodeWHi 510) ∧ regOf 0x23FC#15 = some (.codeLen 255#8) := by decide

/-- Hypotheses of RegisterOffsetsAreInverse: the last register of the window. -/
theorem witness_last_register : (0x5FFC#15).toNat % 4 = 0 ∧ regOf 0x5FFC#15 = some (.codeBits 255#8 7) := by decide

/-- Hypotheses of AccessesOutsideTheContractAreRefused: a narrow, a wide, an unaligned and a proper access. -/
theorem witness_accesses :
    (2 ≠ 4 ∧ 8 ≠ 4) ∧ (3#15).toNat % 4 ≠ 0 ∧ (0x7FFE#15).toNat % 4 ≠ 0 ∧ (0x7FFC#15).toNat % 4 = 0 := by decide

/-- Hypotheses of HostReadReturnsCurrentValue: an idle and a busy state. -/
theorem witness_idle_and_busy : State.reset.busy = false ∧ busyState.busy = true := by decide

/-- Hypotheses of HostWriteEffects and ReservedAndReadOnlyOffsets: the first and the last WEIGHT and NODE. -/
theorem witness_storage_ends :
    regOf (offsetOf (.weight 0#8)) = some (.weight 0#8) ∧ regOf (offsetOf (.weight 255#8)) = some (.weight 255#8) ∧
    regOf (offsetOf (.node 0)) = some (.node 0) ∧ regOf (offsetOf (.node 510)) = some (.node 510) ∧
    regOf 0x0024#15 = none ∧ regOf 0x0000#15 = some .id := by decide

/-- Hypotheses of CommandAcceptance, one state and word for each clause. -/
theorem witness_acceptance :
    busyState.busy = true ∧
    (errState.busy = false ∧ errState.err = true ∧ (0x00000000#32 : Word) ≠ 0x00000009#32) ∧
    (State.reset.busy = false ∧ State.reset.err = false ∧ illegal 0x0000000A#32 = true) ∧
    (State.reset.busy = false ∧ State.reset.err = false ∧ illegal 0x00000009#32 = false) ∧
    (errState.busy = false ∧ illegal 0x00000009#32 = false) := by decide

/-- Hypotheses of CodeWordBitOrder and SoftResetEndsEverything. -/
theorem witness_bit_bounds : 0 < 32 ∧ 31 < 32 ∧ (1#32 : Word).getLsbD 0 = true := by decide

/-- Hypotheses of StepRunsDecodedInstruction, with an empty agenda and with an engine event. -/
theorem witness_step_runs :
    (accept 3#32 State.reset).engine = .run 3#32 .start ∧ decode 3#32 = .ok .extract ∧
    (accept 3#32 State.reset).agenda = [] ∧ (State.reset.withFetchWord 32 3).agenda = [.engine] ∧
    (State.reset.withFetchWord 32 3).engine = .run 3#32 .start := by decide

/-- Hypotheses of WaitingChangesNothing. -/
theorem witness_waiting :
    (Runs .encode .inTake (at' .encode .inTake State.reset) ∧ (at' .encode .inTake State.reset).source = []) ∧
    (Runs (.wbit true) (.outPut (.byte 1#8) .bitWritten) (at' (.wbit true) (.outPut (.byte 1#8) .bitWritten) fullState) ∧
      ¬ hasRoom (at' (.wbit true) (.outPut (.byte 1#8) .bitWritten) fullState)) ∧
    (Runs .wclose (.outPut .endStream .ended) (at' .wclose (.outPut .endStream .ended) fullState) ∧
      ¬ hasRoom (at' .wclose (.outPut .endStream .ended) fullState)) ∧
    (Runs .encode (.outPut (.byte 1#8) (.codeBit 0x42#8 0)) (at' .encode (.outPut (.byte 1#8) (.codeBit 0x42#8 0)) fullState) ∧
      ¬ hasRoom (at' .encode (.outPut (.byte 1#8) (.codeBit 0x42#8 0)) fullState)) ∧
    (Runs .encode (.outPut (.byte 1#8) .padBit) (at' .encode (.outPut (.byte 1#8) .padBit) fullState) ∧
      ¬ hasRoom (at' .encode (.outPut (.byte 1#8) .padBit) fullState)) ∧
    (Runs .decode (.outPut (.byte 1#8) .symbol) (at' .decode (.outPut (.byte 1#8) .symbol) fullState) ∧
      ¬ hasRoom (at' .decode (.outPut (.byte 1#8) .symbol) fullState)) ∧
    (State.reset.engine = .idle ∧ State.reset.agenda = []) :=
  ⟨⟨rfl, rfl⟩, ⟨rfl, full_has_no_room⟩, ⟨rfl, full_has_no_room⟩, ⟨rfl, full_has_no_room⟩, ⟨rfl, full_has_no_room⟩,
    ⟨rfl, full_has_no_room⟩, rfl, rfl⟩

/-- Hypotheses of AbortIsEmittedBeforeTheLatch, with room and without. -/
theorem witness_abort :
    (Runs .decode (.outPut .abort (.aborted .truncatedStream 0x205#32))
        (at' .decode (.outPut .abort (.aborted .truncatedStream 0x205#32)) State.reset) ∧
      hasRoom (at' .decode (.outPut .abort (.aborted .truncatedStream 0x205#32)) State.reset)) ∧
    (Runs .wclose (.outPut .abort (.aborted .unalignedWriteClose 2#32))
        (at' .wclose (.outPut .abort (.aborted .unalignedWriteClose 2#32)) fullState) ∧
      ¬ hasRoom (at' .wclose (.outPut .abort (.aborted .unalignedWriteClose 2#32)) fullState)) :=
  ⟨⟨rfl, room_reset⟩, rfl, full_has_no_room⟩

/-- Hypotheses of ClearGivesFreshState and LoadNodeWritesTheNode. -/
theorem witness_clear_taken : errState.busy = false ∧ errState.err = true := by decide

/-- Hypothesis of MergeJoinsTheTwoLeast: two orphans are enough. -/
theorem witness_merge : 2 ≤ ({ State.reset.builder with orph := [255#9, 256#9] } : Builder).orph.length := by decide

/-- Hypotheses of BuildIgnoresScale: the least factor, and the largest weight. -/
theorem witness_scale :
    (1 ≤ 1 ∧ ∀ i (h : i < 256), (Vector.replicate 256 0xFFFFFFFF#32)[i].toNat =
      1 * (Vector.replicate 256 0xFFFFFFFF#32)[i].toNat) ∧
    (∀ i (h : i < 256), (Vector.replicate 256 0xFFFFFFFF#32)[i].toNat =
      0xFFFFFFFF * (Vector.replicate 256 1#32)[i].toNat) := by
  refine ⟨⟨le_refl 1, ?_⟩, ?_⟩ <;> intro i h <;> simp

/-- The two-leaf arena passes the check. -/
theorem ab_passes : treeCheck abArena = none := by decide +kernel

/-- Hypotheses of CheckDecidesWellFormedness: a well-formed arena, one that fails T1 at node 0, and one that fails T3
at node 2 and nothing below it. -/
theorem witness_check :
    WellFormedTree abState.node ∧ firstCond 0 State.reset.node[0] .rootLeaf ∧
    (firstCond 2 (Node.inner 2#9 3#9) .childNotAbove ∧ (abArena.set 2 (Node.inner 2#9 3#9))[2] = Node.inner 2#9 3#9 ∧
      ∀ j (hj : j < 2) c', ¬ failsCond j (abArena.set 2 (Node.inner 2#9 3#9))[j] c') := by
  refine ⟨?_, by simp [firstCond, failsCond, State.reset, Node.zero], ?_, by simp, ?_⟩
  · intro i h c hc
    have hn : nodeCond i abState.node[i] = none := (treeCheck_none abArena).mp ab_passes i h
    unfold nodeCond at hn
    cases c with
    | rootLeaf =>
      have hc' : i = 0 ∧ abState.node[i].internal = false := hc
      rw [if_pos hc'] at hn
      simp at hn
    | nilChild =>
      have hc' : abState.node[i].internal = true ∧ (abState.node[i].left = Config.nil ∨ abState.node[i].right = Config.nil) := hc
      rw [if_neg (by simp [hc'.1]), if_pos hc'.1, if_pos hc'.2] at hn
      simp at hn
    | childNotAbove =>
      have hc' : abState.node[i].internal = true ∧ (abState.node[i].left.toNat ≤ i ∨ abState.node[i].right.toNat ≤ i) := hc
      rw [if_neg (by simp [hc'.1]), if_pos hc'.1, if_pos hc'.2] at hn
      split at hn <;> simp at hn
  · refine ⟨⟨rfl, .inl (by decide)⟩, ?_, ?_⟩
    · rintro ⟨_, h⟩
      exact absurd h (by decide)
    · rintro ⟨h, _⟩
      exact absurd h (by decide)
  · intro j hj c'
    have : j = 0 ∨ j = 1 := by omega
    rcases this with rfl | rfl <;> cases c' <;>
      simp [failsCond, abArena, Node.inner, Node.leaf, Config.nil]

/-- Hypotheses of WalksOfAPassingTreeEnd. -/
theorem witness_walks : treeCheck abArena = none ∧ (List.replicate 510 true).length = 510 :=
  ⟨ab_passes, List.length_replicate⟩

/-- Hypotheses of ExtractTableFollowsPaths. -/
theorem witness_extract :
    treeCheck abState.node = none ∧
    ∀ i (h : i < 511), abState.node[i].internal = true → (nodePath abState.node i).length ≠ 255 :=
  ⟨ab_passes, by decide +kernel⟩

/-- The arena of V-X3: nodes 0 to 255 are I(i + 1, 510), the others leaves. -/
def chainNode (i : Nat) : Node := if i < 256 then Node.inner (BitVec.ofNat 9 (i + 1)) 510#9 else Node.zero

def chain : Vector Node 511 := Vector.ofFn (fun i => chainNode i.val)

theorem chain_parent (i c : Nat) (hc : c < 510) : isParent chain i c = (decide (i < 256) && i + 1 == c) := by
  unfold isParent
  by_cases hi : i < 511
  · have : chain[i]? = some (chainNode i) := by simp [chain, hi]
    rw [this]
    by_cases h : i < 256
    · have h1 : (i + 1) % 512 = i + 1 := by omega
      have h2 : ¬ 510 = c := by omega
      simp [chainNode, h, Node.inner, h1, h2]
    · simp [chainNode, h, Node.zero]
  · have : chain[i]? = none := by simp; omega
    rw [this]
    simp
    omega

theorem chain_lastParent (c : Nat) (h : c < 256) : lastParent chain (c + 1) = some c := by
  unfold lastParent
  have : (List.range 511).filter (fun i => isParent chain i (c + 1)) = [c] := by
    have hp : ∀ i, isParent chain i (c + 1) = (i == c) := by
      intro i
      rw [chain_parent i (c + 1) (by omega)]
      by_cases hic : i = c
      · subst hic; simp [h]
      · simp [hic]
    simp only [hp]
    rw [List.filter_beq]
    simp [List.count_eq_one_of_mem List.nodup_range (List.mem_range.mpr (show c < 511 by omega))]
  exact (congrArg List.getLast? this).trans rfl

theorem chain_root : lastParent chain 0 = none := by
  unfold lastParent
  have : (List.range 511).filter (fun i => isParent chain i 0) = [] := by
    rw [List.filter_eq_nil_iff]
    intro i _
    rw [chain_parent i 0 (by omega)]
    simp
  exact (congrArg List.getLast? this).trans rfl

/-- In an arena where each node's highest-index parent is the node before it, the path to node `c` has `c` edges. -/
theorem path_length_of_chain (a : Vector Node 511) (m : Nat) (h0 : lastParent a 0 = none)
    (h : ∀ c < m, lastParent a (c + 1) = some c) (n : Nat) :
    ∀ c, c ≤ m → c ≤ n → (pathUpTo a n c).length = c := by
  induction n with
  | zero =>
    intro c _ hn
    rw [Nat.le_zero.mp hn]
    rfl
  | succ n ih =>
    intro c hc hn
    cases c with
    | zero =>
      rw [pathUpTo, h0]
      rfl
    | succ c =>
      rw [pathUpTo, h c (by omega)]
      simp only [Option.elim, List.length_append, ih c (by omega) (by omega)]
      rfl

theorem chain_path_length (c : Nat) (hc : c ≤ 256) : (nodePath chain c).length = c :=
  path_length_of_chain chain 256 chain_root chain_lastParent 511 c hc (by omega)

/-- Hypotheses of ExtractOverflowClearsTable: V-X3, where node 255 is the lowest internal node at depth 255. -/
theorem witness_overflow :
    treeCheck chain = none ∧ chain[255].internal = true ∧ (nodePath chain 255).length = 255 ∧
    ∀ j (hj : j < 255), chain[j].internal = true → (nodePath chain j).length ≠ 255 := by
  refine ⟨?_, by simp [chain, chainNode, Node.inner], chain_path_length 255 (by omega), ?_⟩
  · rw [treeCheck_none]
    intro i h
    have : chain[i] = chainNode i := by simp [chain]
    rw [this]
    by_cases hi : i < 256
    · have h1 : (i + 1) % 512 = i + 1 := by omega
      have h2 : ¬ BitVec.ofNat 9 (i + 1) = 511#9 := by
        intro h3
        have := congrArg BitVec.toNat h3
        simp [h1] at this
        omega
      have h3 : ¬ 510 ≤ i := by omega
      simp [nodeCond, chainNode, hi, Node.inner, Config.nil, h1, h2, h3]
    · have : i ≠ 0 := by omega
      simp [nodeCond, chainNode, hi, Node.zero, this]
  · intro j hj _
    rw [chain_path_length j (by omega)]
    omega

/-- Hypotheses of FailingArenaStopsExtractAndDecode. -/
theorem witness_failing_arena :
    treeCheck State.reset.node = some (0, .rootLeaf) ∧ Runs .decode .start (at' .decode .start State.reset) :=
  ⟨by decide +kernel, rfl⟩

/-- Hypotheses of WbitAppendsOneBit, WcloseNeedsByteBoundary and RbitReadsOneBit, clause by clause. -/
theorem witness_bit_commands :
    (Runs (.wbit true) .start (at' (.wbit true) .start State.reset) ∧ State.reset.wcnt ≠ 7#3) ∧
    (Runs (.wbit true) .start (at' (.wbit true) .start { State.reset with wcnt := 7#3 }) ∧
      (at' (.wbit true) .start { State.reset with wcnt := 7#3 }).wcnt = 7#3) ∧
    (Runs (.wbit true) (.outPut (.byte 3#8) .bitWritten) (at' (.wbit true) (.outPut (.byte 3#8) .bitWritten) State.reset) ∧
      hasRoom (at' (.wbit true) (.outPut (.byte 3#8) .bitWritten) State.reset)) ∧
    (Runs .wclose .start (at' .wclose .start State.reset) ∧ (at' .wclose .start State.reset).wcnt = 0#3) ∧
    (Runs .wclose .start (at' .wclose .start { State.reset with wcnt := 1#3 }) ∧
      (at' .wclose .start { State.reset with wcnt := 1#3 }).wcnt ≠ 0#3) ∧
    (Runs .wclose (.outPut .endStream .ended) (at' .wclose (.outPut .endStream .ended) State.reset) ∧
      hasRoom (at' .wclose (.outPut .endStream .ended) State.reset)) ∧
    (Runs .wclose (.outPut .abort (.aborted .unalignedWriteClose 7#32))
        (at' .wclose (.outPut .abort (.aborted .unalignedWriteClose 7#32)) State.reset) ∧
      hasRoom (at' .wclose (.outPut .abort (.aborted .unalignedWriteClose 7#32)) State.reset)) ∧
    (Runs .rbit .start (at' .rbit .start { State.reset with rcnt := 1#3 }) ∧
      (at' .rbit .start { State.reset with rcnt := 1#3 }).rcnt ≠ 0#3) ∧
    (Runs .rbit .start (at' .rbit .start State.reset) ∧ (at' .rbit .start State.reset).rcnt = 0#3) ∧
    (∀ t : InToken, Runs .rbit .inTake (at' .rbit .inTake { State.reset with source := [t] }) ∧
      (at' .rbit .inTake { State.reset with source := [t] }).source = t :: []) ∧
    (Runs .wclose (.outPut .endStream .ended) (at' .wclose (.outPut .endStream .ended) fullState) ∧
      ¬ hasRoom (at' .wclose (.outPut .endStream .ended) fullState)) ∧
    (Runs .rbit .inTake (at' .rbit .inTake State.reset) ∧ (at' .rbit .inTake State.reset).source = []) :=
  ⟨⟨rfl, by decide⟩, ⟨rfl, rfl⟩, ⟨rfl, room_reset⟩, ⟨rfl, rfl⟩, ⟨rfl, by decide⟩, ⟨rfl, room_reset⟩,
    ⟨rfl, room_reset⟩, ⟨rfl, by decide⟩, ⟨rfl, rfl⟩, fun _ => ⟨rfl, rfl⟩,
    ⟨rfl, full_has_no_room⟩, rfl, rfl⟩

/-- Hypotheses of EncodeStartsAndEnds and DecodeStartsAndEnds, clause by clause. -/
theorem witness_stream_commands :
    (Runs .encode .start (at' .encode .start State.reset) ∧ (at' .encode .start State.reset).tableValid = false) ∧
    (Runs .encode .start (at' .encode .start abTable) ∧ (at' .encode .start abTable).tableValid = true) ∧
    (∀ t : InToken, Runs .encode .inTake (at' .encode .inTake { abTable with source := [t] }) ∧
      (at' .encode .inTake { abTable with source := [t] }).source = t :: [] ∧
      (at' .encode .inTake { abTable with source := [t] }).wcnt = 0#3) ∧
    (Runs .encode (.outPut .endStream .ended) (at' .encode (.outPut .endStream .ended) abTable) ∧
      hasRoom (at' .encode (.outPut .endStream .ended) abTable)) ∧
    (Runs .decode .start (at' .decode .start abState) ∧ treeCheck (at' .decode .start abState).node = none ∧
      (at' .decode .start abState).rcnt = 0#3) ∧
    (∀ t : InToken, Runs .decode .inTake (at' .decode .inTake { abState with source := [t] }) ∧
      (at' .decode .inTake { abState with source := [t] }).source = t :: []) ∧
    (Runs .decode (.outPut .endStream .ended) (at' .decode (.outPut .endStream .ended) abState) ∧
      hasRoom (at' .decode (.outPut .endStream .ended) abState)) :=
  ⟨⟨rfl, rfl⟩, ⟨rfl, rfl⟩, fun _ => ⟨rfl, rfl, rfl⟩, ⟨rfl, room_reset⟩, ⟨rfl, ab_passes, rfl⟩, fun _ => ⟨rfl, rfl⟩,
    rfl, room_reset⟩

/-- ENCODE about to read `input` with the two-leaf table. -/
def encodeInput (input : List Byte) : State :=
  at' .encode .start { abTable with source := input.map .byte ++ .endStream :: [.fail] }

theorem write_cursor_of_zero (s : State) (h : s.wbuf = 0#8) : WriteCursorOk s := .inr (by intro j _; simp [h])

/-- ENCODE about to read END, with one bit held and a table whose least symbol has an 8-bit code. -/
def encodePadding : State := { encodeInput [] with wcnt := 1#3, len := abTable.len.set 0 8#8 }

/-- Hypotheses of EncodeEmitsThePackedStream: 8 bits, with none missing; and 1 bit held, with 7 missing and a code to
pad with. -/
theorem witness_encode :
    (Runs .encode .start (encodeInput (List.replicate 8 0x42#8)) ∧
      (encodeInput (List.replicate 8 0x42#8)).tableValid = true ∧
      WriteCursorOk (encodeInput (List.replicate 8 0x42#8)) ∧
      (encodeInput (List.replicate 8 0x42#8)).outq.length ≤ Config.outCap ∧
      (encodeInput (List.replicate 8 0x42#8)).source =
        (List.replicate 8 0x42#8).map .byte ++ .endStream :: [.fail] ∧
      missingBits (heldBits (encodeInput (List.replicate 8 0x42#8)) ++
        (List.replicate 8 0x42#8).flatMap (codeString abTable.len abTable.code)) = 0) ∧
    (Runs .encode .start encodePadding ∧ encodePadding.tableValid = true ∧ WriteCursorOk encodePadding ∧
      encodePadding.outq.length ≤ Config.outCap ∧ encodePadding.source = [].map .byte ++ .endStream :: [.fail] ∧
      missingBits (heldBits encodePadding) = 7 ∧ padExists encodePadding.len 7) :=
  ⟨⟨rfl, rfl, write_cursor_of_zero _ rfl, Nat.zero_le _, rfl, by decide +kernel⟩,
    rfl, rfl, write_cursor_of_zero _ rfl, Nat.zero_le _, rfl, by decide, 0#8, by decide +kernel⟩

/-- Hypotheses of EncodeWithoutPaddingAborts: V-E5. -/
theorem witness_encode_no_padding :
    Runs .encode .start (encodeInput [0x41#8, 0x42#8, 0x41#8]) ∧
    (encodeInput [0x41#8, 0x42#8, 0x41#8]).tableValid = true ∧
    WriteCursorOk (encodeInput [0x41#8, 0x42#8, 0x41#8]) ∧
    (encodeInput [0x41#8, 0x42#8, 0x41#8]).outq.length ≤ Config.outCap ∧
    (encodeInput [0x41#8, 0x42#8, 0x41#8]).source = [0x41#8, 0x42#8, 0x41#8].map .byte ++ .endStream :: [.fail] ∧
    missingBits (heldBits (encodeInput [0x41#8, 0x42#8, 0x41#8]) ++
      [0x41#8, 0x42#8, 0x41#8].flatMap (codeString abTable.len abTable.code)) = 5 ∧
    ¬ padExists abTable.len 5 := by
  refine ⟨rfl, rfl, write_cursor_of_zero _ rfl, Nat.zero_le _, rfl, by decide +kernel, ?_⟩
  rintro ⟨x, hx⟩
  have : ∀ n : Fin 256, lenAt abTable.len (BitVec.ofFin n) ≤ 5 := by decide +kernel
  have := this x.toFin
  simp at this
  omega

/-- Hypotheses of EncodeTakesOneByte, clause by clause: 0x42 with a code of one bit, 7 bits held and none; and 8 bits. -/
theorem witness_encode_byte :
    (Runs .encode .inTake (at' .encode .inTake { abTable with source := [.byte 0x42#8] }) ∧
      (heldBits abTable ++ codeString abTable.len abTable.code 0x42#8).length < 8) ∧
    8 ≤ (heldBits { abTable with wcnt := 7#3 } ++ codeString abTable.len abTable.code 0x42#8).length :=
  ⟨⟨rfl, by decide +kernel⟩, by decide +kernel⟩

/-- Hypotheses of DecodeTakesOneByte: the first bit of 0x55 leads to a leaf; in V-X3's arena all eight bits 0 lead down
internal nodes. -/
theorem witness_decode_byte :
    (Runs .decode .inTake (at' .decode .inTake { abState with source := [.byte 0x55#8] }) ∧
      walkTo abState.node abState.dstate ((byteBits 0x55#8).take (0 + 1)) = some 1#9 ∧
      nodeAt abState.node 1#9 = some (Node.leaf 0x41#8)) ∧
    (walkTo chain Config.root (byteBits 0x00#8) = some 8#9 ∧ nodeAt chain 8#9 = some (Node.inner 9#9 510#9)) :=
  ⟨⟨rfl, by decide +kernel, by decide +kernel⟩, by decide +kernel, by decide +kernel⟩

/-- Hypotheses of DecodeEmitsTheWalkedSymbols. -/
theorem witness_decode :
    Runs .decode .start (at' .decode .start { abState with source := [0x55#8].map .byte ++ .endStream :: [] }) ∧
    treeCheck abState.node = none ∧ abState.outq.length ≤ Config.outCap :=
  ⟨rfl, ab_passes, Nat.zero_le _⟩

/-- Hypotheses of RoundTripLaw: for any table and any output there are an encoder's and a decoder's state. -/
theorem witness_round_trip (x : Extractor) (a : Vector Node 511) (input out : List Byte) :
    ∃ s u : State, s.len = x.len ∧ s.code = x.code ∧ Runs .encode .start s ∧ s.tableValid = true ∧ s.wcnt = 0#3 ∧
      s.wbuf = 0#8 ∧ s.outq.length ≤ Config.outCap ∧ s.source = input.map .byte ++ .endStream :: [] ∧
      Runs .decode .start u ∧ u.node = a ∧ u.rcnt = 0#3 ∧ u.outq.length ≤ Config.outCap ∧
      u.source = out.map .byte ++ .endStream :: [] :=
  ⟨at' .encode .start { State.reset with
      len := x.len, code := x.code, tableValid := true, source := input.map .byte ++ .endStream :: [] },
    at' .decode .start { State.reset with node := a, source := out.map .byte ++ .endStream :: [] },
    rfl, rfl, rfl, rfl, rfl, rfl, Nat.zero_le _, rfl, rfl, rfl, rfl, Nat.zero_le _, rfl⟩

/-- A command runs in a state that meets the invariant: CHECK, accepted with the two-leaf arena loaded. -/
def checkState : State := accept 2#32 abState

theorem check_state_inv : MachineInv checkState :=
  inv_of_fresh checkState (by constructor <;> decide) (fun h => absurd (show (false : Bool) = true from h.1) (by decide))
    ⟨fun h => absurd h (by decide), fun h => absurd (show (false : Bool) = true from h) (by decide)⟩ rfl rfl
    (Nat.zero_le _)
    (by
      intro w p h
      have hwp : w = 2#32 ∧ p = .start := by
        simp only [checkState, accept_engine, Engine.run.injEq] at h
        exact ⟨h.1.symm, h.2.symm⟩
      obtain ⟨rfl, rfl⟩ := hwp
      exact ⟨.check, rfl, rfl, rfl, fun h => absurd (show (false : Bool) = true from h) (by decide), trivial⟩)

/-- Hypotheses of EveryStepKeepsTheInvariant, InvariantRulesOutFaults, ScratchIsNeverRead and
ValidityFlagsChangeOnlyOnTheirEvents: CHECK passes and sets TREE_VALID. -/
theorem witness_invariant_step :
    MachineInv checkState ∧ ∃ t, step checkState = .next t ∧ t.treeValid ≠ checkState.treeValid := by
  have h : step checkState = .next (complete (validity .checkPasses checkState)) := by
    have hs : step checkState = execCheck checkState := rfl
    rw [hs, execCheck]
    exact checkedTree_pass (s := checkState) ab_passes
  exact ⟨check_state_inv, _, h, by decide⟩

/-- An access out of contract, for the refusal of InvariantRulesOutFaults. -/
theorem witness_refusal :
    ∃ r, step { State.reset with agenda := [.host { kind := .read, offset := 1#15, bytes := 4 }] } = .refused r :=
  ⟨.accessAlignment, rfl⟩

/-- Hypotheses of LatchedErrorIsKept: a NOP is written while an error is latched (V-N5); and of
PortTokensKeepTheirOrder. -/
theorem witness_latched_error :
    MachineInv errState ∧ errState.err = true ∧ (∃ t, step errState = .next t) ∧ ¬ SoftResets errState ∧
    ¬ ∃ p, EngineMoves errState .clear p := by
  refine ⟨?_, rfl, ⟨_, rfl⟩, ?_, ?_⟩
  · exact inv_of_fresh errState (by constructor <;> decide) (by decide) (by constructor <;> decide) rfl rfl
      (Nat.zero_le _) (by intro w p h; simp [errState, State.reset] at h)
  · rintro ⟨v, ⟨a, ha, -, -, hr⟩, -⟩
    simp only [nextAccess, errState, Option.some.injEq] at ha
    rw [← ha] at hr
    exact absurd hr (by decide)
  · rintro ⟨p, -, w, hw, -⟩
    simp [errState, State.reset] at hw

/-- Hypotheses of EachRegisterHasItsWriters, clause by clause: a step that changes the register named. -/
theorem witness_writers :
    (after (step { State.reset with agenda := [.host (writeRegAccess (.weight 7#8) 1#32)] }) 0#32
      (fun t => t.weight[7]) ≠ State.reset.weight[7]) ∧
    (after (step { State.reset with agenda := [.host (writeRegAccess (.node 0) 0x80000401#32)] }) Node.zero
      (fun t => t.node[0]) ≠ State.reset.node[0]) ∧
    (after (step (accept 3#32 abState)) 0#8 (fun t => t.len[0x42]) ≠ abState.len[0x42]) ∧
    (after (step (accept 8#32 { State.reset with rbuf := 1#8, rcnt := 1#3 })) 0#2 (fun t => t.result) ≠ 0#2) ∧
    (after (step { State.reset with agenda := [.host (writeRegAccess .irqEn 3#32)] }) 0#2 (fun t => t.irqEn) ≠ 0#2) ∧
    (after (step (accept 9#32 { State.reset with dstate := 5#9 })) 5#9 (fun t => t.dstate) ≠ 5#9) ∧
    (after (step { State.reset with agenda := [.host (commandAccess .wclose)] }) 0#4 (fun t => t.op) ≠ 0#4) ∧
    (after (step (accept 0x106#32 State.reset)) (0#8, 0#3, false) (fun t => (t.wbuf, t.wcnt, t.done)) =
      (0x80#8, 1#3, true)) ∧
    (after (step (accept 8#32 { State.reset with rcnt := 1#3 })) 1#3 (fun t => t.rcnt) = 0#3) ∧
    (after (step (accept 4#32 State.reset)) (false, 0#4, 0#32) (fun t => (t.err, t.errCode, t.errInfo)) =
      (true, 6#4, 4#32)) ∧
    (after (step { State.reset with done := true, dropped := true, agenda := [.host (writeRegAccess .status 0xA#32)] })
      (true, true) (fun t => (t.done, t.dropped)) = (false, false)) ∧
    (after (step { busyState with agenda := [.host (commandAccess .nop)] }) false (fun t => t.dropped) = true) := by
  decide +kernel

/-- BUILD changes a node weight that is not its leaf's weight (NODEW clause of EachRegisterHasItsWriters). -/
theorem witness_build_writes_nodew :
    ∃ t, step (accept 1#32 { State.reset with nodew := State.reset.nodew.set 255 9#40 }) = .next t ∧
      t.nodew[255]? ≠ (State.reset.nodew.set 255 9#40)[255]? := by
  refine ⟨_, rfl, ?_⟩
  have h := (buildTree_leaf State.reset.weight
    (accept 1#32 { State.reset with nodew := State.reset.nodew.set 255 9#40 }).builder 0 (by omega)).2
  intro he
  have h' := h.symm.trans he
  revert h'
  decide +kernel

/-- Hypotheses of HostCannotDisturbARunningCommand: a NOP is written while ENCODE waits (V-N15). -/
theorem witness_undisturbed :
    busyState.busy = true ∧ ∃ t, step { busyState with agenda := [.host (commandAccess .nop)] } = .next t :=
  ⟨by decide, _, rfl⟩

/-- Hypothesis of LoadNodeWritesTheNode: P4's second statement writes 0x0107FFFF. -/
theorem witness_load_node :
    (State.reset.withProgram [.ldnLeaf 1 0x41#8]).busy = false ∧
    (State.reset.withProgram [.ldnLeaf 1 0x41#8]).program = .ldnLeaf 1 0x41#8 :: [] ∧
    stmtAccess (.ldnLeaf 1 0x41#8) = some { kind := .write 0x0107FFFF#32, offset := 0x0804#15, bytes := 4 } := by
  decide

/-- Hypotheses of ProgramStatementsMakeTheirAccess, clause by clause: any program can be placed. -/
theorem witness_program (st : HostStmt) (rest : List HostStmt) :
    (State.reset.withProgram (st :: rest)).program = st :: rest := rfl

/-- Hypotheses of WaitEndsOnlyWhenNotBusy: a WAIT while ENCODE waits, and one with the engine idle. -/
theorem witness_wait :
    ((busyState.withProgram [.wait]).program = .wait :: [] ∧ (busyState.withProgram [.wait]).busy = true) ∧
    ((State.reset.withProgram [.wait]).program = .wait :: [] ∧ (State.reset.withProgram [.wait]).busy = false) := by
  decide

/-- Hypotheses of WaitLoopsWhileStarved: ENCODE with no token offered, and WCLOSE's END before a full OUT queue. -/
theorem witness_starved :
    (Starved (busyState.withProgram [.wait]) .encode ∧ (busyState.withProgram [.wait]).program = .wait :: []) ∧
    (Starved ((at' .wclose (.outPut .endStream .ended) fullState).withProgram [.wait]) .wclose ∧
      ((at' .wclose (.outPut .endStream .ended) fullState).withProgram [.wait]).program = .wait :: []) :=
  ⟨⟨.inl ⟨.inl rfl, rfl, rfl⟩, rfl⟩, .inr ⟨.endStream, .ended, ⟨rfl, rfl⟩, rfl, full_has_no_room⟩, rfl⟩

end Sys2Proof.Tests
end

namespace Sys2Proof.Machine

/-! ## Where a step goes: the agenda's event, and the engine's command (00_scope.md R10, 10_state.md R37) -/

/-- Log 2. -/
theorem step_of_agenda_nil {s : State} (ha : s.agenda = []) : step s = engineStep s := by
  simp [step, ha]

/-- Log 1. -/
theorem step_of_agenda_cons {s : State} {e : Event} {rest : List Event} (ha : s.agenda = e :: rest) :
    step s = move e { s with agenda := rest } := by
  simp [step, ha]

/-- R37: of the cases of `engineStep_cases`, a running engine rules out the idle one, and a word that decodes rules out
the fault. -/
theorem engineStep_of_run {s : State} {w : Word} {p : Phase} {i : Instr} (hrun : s.engine = .run w p)
    (hdec : decode w = .ok i) : engineStep s = exec i s := by
  obtain ⟨hidle, -⟩ | ⟨w', p', hrun', ⟨j, hdec', hexec⟩ | ⟨⟨e, herr⟩, -⟩⟩ := engineStep_cases s
  · simp [hrun] at hidle
  · obtain ⟨rfl, rfl⟩ : w = w' ∧ p = p' := by simpa [hrun] using hrun'
    obtain rfl : i = j := by simpa [hdec] using hdec'
    exact hexec
  · obtain ⟨rfl, rfl⟩ : w = w' ∧ p = p' := by simpa [hrun] using hrun'
    simp [hdec] at herr

/-- Settles O19: both ways to the engine's move end in `engineStep`, and using an event up leaves the engine as it was. -/
theorem stepRunsDecodedInstruction : Obligations.StepRunsDecodedInstruction := by
  intro s w p i hrun hdec
  constructor
  · intro hnil
    rw [step_of_agenda_nil hnil, engineStep_of_run hrun hdec]
  · intro rest hcons
    rw [step_of_agenda_cons hcons]
    have hrun' : { s with agenda := rest }.engine = .run w p := hrun
    exact engineStep_of_run hrun' hdec

end Sys2Proof.Machine

namespace Sys2Proof.Machine

/-! ## A legal command word is its command's encoding (30_encoding.md R91, R92) -/

theorem toNat_eq_fields (v : Word) :
    v.toNat = 512 * (rsvOf v).toNat + 256 * (bOf v).toNat + (opcOf v).toNat := by
  have hb : (bOf v).toNat = v.toNat / 256 % 2 := by
    simp [bOf, BitVec.getLsbD, Nat.toNat_testBit]
  simp only [rsvOf, opcOf, hb, BitVec.extractLsb'_toNat, Nat.shiftRight_eq_div_pow]
  omega

theorem plainRow_eq_ok {v : Word} {i j : Instr} (h : plainRow v i = .ok j) : bOf v = false ∧ i = j := by
  cases hb : bOf v <;> simp_all [plainRow]

/-- R92: the decoder answers a command only for that command's own word. -/
theorem eq_encode_of_decode {v : Word} {i : Instr} (h : decode v = .ok i) : v = encode i := by
  refine BitVec.eq_of_toNat_eq ?_
  rw [toNat_eq_fields v]
  unfold decode at h
  split at h
  · simp at h
  · rename_i hr
    rw [not_not.mp hr]
    split at h
    case h_11 => simp at h
    case h_7 hop =>
      obtain rfl : Instr.wbit (bOf v) = i := by simpa using h
      rw [hop]
      cases bOf v <;> rfl
    all_goals
      rename_i hop
      obtain ⟨hb, rfl⟩ := plainRow_eq_ok h
      rw [hb, hop]
      rfl

@[simp] theorem decode_encode (i : Instr) : decode (encode i) = .ok i := by
  cases i with
  | wbit b => cases b <;> rfl
  | _ => rfl

/-! ## What a step can do, once -/

/-- The two states differ only in the ports' queues and in the model's own record of the environment, and the OUT queue
has not grown. -/
def OnlyEnvironmentChanged (s t : State) : Prop :=
  t = { s with
    outq := t.outq, source := t.source, sunk := t.sunk, agenda := t.agenda, reads := t.reads
    program := t.program, bindings := t.bindings, checks := t.checks, draws := t.draws } ∧
  t.outq.length ≤ s.outq.length

theorem OnlyEnvironmentChanged.refl (s : State) : OnlyEnvironmentChanged s s := ⟨rfl, le_refl _⟩

theorem OnlyEnvironmentChanged.trans {s t u : State} (hst : OnlyEnvironmentChanged s t)
    (htu : OnlyEnvironmentChanged t u) : OnlyEnvironmentChanged s u := by
  obtain ⟨ht, hlt⟩ := hst
  obtain ⟨hu, hlu⟩ := htu
  refine ⟨?_, hlu.trans hlt⟩
  rw [ht] at hu
  exact hu

theorem onlyEnvironmentChanged_advance (st : HostStmt) (rest : List HostStmt) (v : Word) (s : State) :
    OnlyEnvironmentChanged s (advance st rest v s) := by
  rw [advance_frame]
  exact ⟨rfl, le_refl _⟩

theorem onlyEnvironmentChanged_sinkTake (s : State) : OnlyEnvironmentChanged s (sinkTake s) := by
  unfold sinkTake
  split
  · exact .refl s
  · rename_i hq
    exact ⟨rfl, by simp [hq]⟩

/-- A move of the engine leaves the state as it was, or is an atomic step of the running command. -/
theorem engineStep_next_cases {s t : State} (h : engineStep s = .next t) :
    t = s ∨ ∃ w p i, s.engine = .run w p ∧ decode w = .ok i ∧ exec i s = .next t := by
  obtain ⟨-, hidle⟩ | ⟨w, p, hrun, ⟨i, hdec, hexec⟩ | ⟨-, hfault⟩⟩ := engineStep_cases s
  · exact .inl (by simpa [hidle] using h.symm)
  · exact .inr ⟨w, p, i, hrun, hdec, hexec ▸ h⟩
  · simp [hfault] at h

/-- A host access leaves HCORE as it was, or is the well-formed write of a register. -/
theorem hostAccess_next_cases {a : HostAccess} {s t : State} (h : hostAccess a s = .next t) :
    OnlyEnvironmentChanged s t ∨
      ∃ r v, a.wf = true ∧ a.kind = .write v ∧ regOf a.offset = some r ∧ t = writeReg r v s := by
  obtain ⟨-, hr | hr⟩ | ⟨-, -, hr⟩ | ⟨hwf, v, hk, hr⟩ := hostAccess_cases a s
  · simp [hr] at h
  · simp [hr] at h
  · obtain rfl : hostRead a.offset s = t := by simpa [hr] using h
    exact .inl ⟨rfl, le_refl _⟩
  · obtain rfl : hostWrite a.offset v s = t := by simpa [hr] using h
    cases hreg : regOf a.offset with
    | none => exact .inl (by simpa [hostWrite, hreg] using .refl s)
    | some r => exact .inr ⟨r, v, hwf, hk, rfl, by simp [hostWrite, hreg]⟩

/-- A move of the host's program changes nothing of HCORE, or makes its statement's access once the program has moved
on. -/
theorem hostMove_next_cases {s t : State} (h : hostMove s = .next t) :
    OnlyEnvironmentChanged s t ∨
      ∃ st prog a s', s.program = st :: prog ∧ stmtAccess st = some a ∧ OnlyEnvironmentChanged s s' ∧
        hostAccess a s' = .next t := by
  cases hprog : s.program with
  | nil =>
    obtain rfl : s = t := by simpa [hostMove_nil hprog] using h
    exact .inl (.refl s)
  | cons st prog =>
    obtain ⟨-, hm⟩ | ⟨a, ha, hm⟩ := hostMove_cons hprog
    · obtain rfl : advance st prog 0#32 s = t := by simpa [hm] using h
      exact .inl (onlyEnvironmentChanged_advance ..)
    · exact .inr ⟨st, prog, a, _, rfl, ha, onlyEnvironmentChanged_advance .., hm ▸ h⟩

/-- A step is an atomic step of the running command, the host access `nextAccess` names, or a change outside HCORE. In
the first two, the agenda and the host's program have moved on before. -/
theorem step_next_cases {s t : State} (h : step s = .next t) :
    (∃ i p s', EngineMoves s i p ∧ OnlyEnvironmentChanged s s' ∧ exec i s' = .next t) ∨
      (∃ a s', nextAccess s = some a ∧ OnlyEnvironmentChanged s s' ∧ hostAccess a s' = .next t) ∨
      OnlyEnvironmentChanged s t := by
  cases hag : s.agenda with
  | nil =>
    rw [step_of_agenda_nil hag] at h
    obtain rfl | ⟨w, p, i, hrun, hdec, hexec⟩ := engineStep_next_cases h
    · exact .inr (.inr (.refl _))
    · exact .inl ⟨i, p, s, ⟨.inl hag, w, hrun, hdec⟩, .refl s, hexec⟩
  | cons e rest =>
    rw [step_of_agenda_cons hag] at h
    have hpop : OnlyEnvironmentChanged s { s with agenda := rest } := ⟨rfl, le_refl _⟩
    cases e with
    | engine =>
      obtain rfl | ⟨w, p, i, hrun, hdec, hexec⟩ := engineStep_next_cases h
      · exact .inr (.inr hpop)
      · exact .inl ⟨i, p, _, ⟨.inr ⟨rest, hag⟩, w, hrun, hdec⟩, hpop, hexec⟩
    | host a => exact .inr (.inl ⟨a, _, by simp [nextAccess, hag], hpop, h⟩)
    | hostStmt =>
      obtain henv | ⟨st, prog, a, s', hprog, ha, henv, hacc⟩ := hostMove_next_cases h
      · exact .inr (.inr (hpop.trans henv))
      · have hprog : s.program = st :: prog := hprog
        exact .inr (.inl ⟨a, s', by simp [nextAccess, hag, hprog, ha], hpop.trans henv, hacc⟩)
    | offer tok =>
      obtain rfl : offer tok { s with agenda := rest } = t := by simpa [move] using h
      exact .inr (.inr ⟨rfl, le_refl _⟩)
    | sinkTake =>
      obtain rfl : sinkTake { s with agenda := rest } = t := by simpa [move] using h
      exact .inr (.inr (hpop.trans (onlyEnvironmentChanged_sinkTake _)))

/-- The three things a step can be, the host's as a write of a register. -/
theorem step_cases {s t : State} (h : step s = .next t) :
    (∃ i p s', EngineMoves s i p ∧ OnlyEnvironmentChanged s s' ∧ exec i s' = .next t) ∨
      (∃ r v s', HostWrites s r v ∧ OnlyEnvironmentChanged s s' ∧ t = writeReg r v s') ∨
      OnlyEnvironmentChanged s t := by
  obtain hexec | ⟨a, s', hnext, henv, hacc⟩ | henv := step_next_cases h
  · exact .inl hexec
  · obtain henv' | ⟨r, v, hwf, hk, hreg, ht⟩ := hostAccess_next_cases hacc
    · exact .inr (.inr (henv.trans henv'))
    · exact .inr (.inl ⟨r, v, s', ⟨a, hnext, hwf, hk, hreg⟩, henv, ht⟩)
  · exact .inr (.inr henv)

end Sys2Proof.Machine

namespace Sys2Proof.Machine

/-! ## What a result of a port primitive or of the tree check came from -/

theorem inTake_next_cases {k : InToken → State → Result} {s t : State} (h : inTake k s = .next t) :
    t = s ∨ ∃ tok rest, s.source = tok :: rest ∧ k tok { s with source := rest } = .next t := by
  obtain ⟨-, hr⟩ | ⟨tok, rest, hsrc, hr⟩ := inTake_cases h
  · exact .inl (by simpa using hr)
  · exact .inr ⟨tok, rest, hsrc, hr.symm⟩

theorem outPut_next_cases {tok : OutToken} {k : State → Result} {s t : State} (h : outPut tok k s = .next t) :
    t = s ∨ (hasRoom s ∧ k { s with outq := s.outq ++ [tok] } = .next t) := by
  obtain ⟨hroom, hr⟩ | ⟨-, hr⟩ := outPut_cases h
  · exact .inr ⟨hroom, hr.symm⟩
  · exact .inl (by simpa using hr)

theorem checkedTree_next_cases {i : Instr} {k : State → Result} {s t : State} (h : checkedTree i k s = .next t) :
    (∃ n c, treeCheck s.node = some (n, c) ∧
      t = latch .malformedTree (malformedInfo n c) (validity .checkFails s)) ∨
      (treeCheck s.node = none ∧ k (validity .checkPasses s) = .next t) := by
  cases hc : treeCheck s.node with
  | none => exact .inr ⟨rfl, (checkedTree_pass hc).symm.trans h⟩
  | some x => exact .inl ⟨x.1, x.2, rfl, by simpa [checkedTree_fail hc] using h.symm⟩

/-! ## What an atomic step of each port command can be, once -/

/-- R164. -/
theorem execWbit_next_cases {b : Bool} {s t : State} (h : execWbit b s = .next t) :
    t = s ∨ (s.phase = .start ∧ t = putBit (.wbit b) .bitWritten b complete s) ∨
      ∃ tok, s.phase = .outPut tok .bitWritten ∧ hasRoom s ∧
        t = complete (clearWrite { s with outq := s.outq ++ [tok] }) := by
  unfold execWbit at h
  split at h
  case h_1 hp => exact .inr (.inl ⟨hp, by simpa using h.symm⟩)
  case h_2 tok hp =>
    obtain rfl | ⟨hroom, hk⟩ := outPut_next_cases h
    · exact .inl rfl
    · exact .inr (.inr ⟨tok, hp, hroom, by simpa using hk.symm⟩)
  all_goals simp at h

/-- R165. -/
theorem execWclose_next_cases {s t : State} (h : execWclose s = .next t) :
    t = s ∨
      (s.phase = .start ∧ s.wcnt = 0#3 ∧ t = enter .wclose (.outPut .endStream .ended) s) ∨
      (s.phase = .start ∧ s.wcnt ≠ 0#3 ∧
        t = enter .wclose (.outPut .abort (.aborted .unalignedWriteClose (s.wcnt.setWidth 32))) s) ∨
      (∃ tok, s.phase = .outPut tok .ended ∧ hasRoom s ∧ t = complete { s with outq := s.outq ++ [tok] }) ∨
      ∃ tok e info, s.phase = .outPut tok (.aborted e info) ∧ hasRoom s ∧
        t = latch e info { s with outq := s.outq ++ [tok] } := by
  unfold execWclose at h
  split at h
  case h_1 hp =>
    split at h
    · exact .inr (.inl ⟨hp, ‹_›, by simpa using h.symm⟩)
    · exact .inr (.inr (.inl ⟨hp, ‹_›, by simpa [raiseError, abortsStream] using h.symm⟩))
  case h_2 tok hp =>
    obtain rfl | ⟨hroom, hk⟩ := outPut_next_cases h
    · exact .inl rfl
    · exact .inr (.inr (.inr (.inl ⟨tok, hp, hroom, by simpa using hk.symm⟩)))
  case h_3 tok e info hp =>
    obtain rfl | ⟨hroom, hk⟩ := outPut_next_cases h
    · exact .inl rfl
    · exact .inr (.inr (.inr (.inr ⟨tok, e, info, hp, hroom, by simpa using hk.symm⟩)))
  all_goals simp at h

/-- R166, the token of InTake. -/
theorem readToken_next_cases {tok : InToken} {s t : State} (h : readToken tok s = .next t) :
    (∃ d, t = readBit 7 (loadByte d s)) ∨ t = complete { s with result := resultEos } ∨
      ∃ info, t = latch .truncatedStream info s := by
  cases tok with
  | byte d => exact .inl ⟨d, by simpa [readToken] using h.symm⟩
  | endStream => exact .inr (.inl (by simpa [readToken] using h.symm))
  | fail => exact .inr (.inr ⟨_, by simpa [readToken, raiseError, abortsStream] using h.symm⟩)
  | rsvd => exact .inr (.inr ⟨_, by simpa [readToken, raiseError, abortsStream] using h.symm⟩)

/-- R166. -/
theorem execRbit_next_cases {s t : State} (h : execRbit s = .next t) :
    t = s ∨ (s.phase = .start ∧ s.rcnt = 0#3 ∧ t = enter .rbit .inTake s) ∨
      (s.phase = .start ∧ ∃ n, t = readBit n s) ∨
      (s.phase = .inTake ∧ ∃ tok rest, readToken tok { s with source := rest } = .next t) := by
  unfold execRbit at h
  split at h
  case h_1 hp =>
    split at h
    case h_1 hn => exact .inr (.inl ⟨hp, BitVec.eq_of_toNat_eq hn, by simpa using h.symm⟩)
    case h_2 n hn => exact .inr (.inr (.inl ⟨hp, n, by simpa using h.symm⟩))
  case h_2 hp =>
    obtain rfl | ⟨tok, rest, -, hk⟩ := inTake_next_cases h
    · exact .inl rfl
    · exact .inr (.inr (.inr ⟨hp, tok, rest, hk⟩))
  case h_3 => simp at h

/-- R180, the token of InTake. -/
theorem encodeToken_next_cases {tok : InToken} {s t : State} (h : encodeToken tok s = .next t) :
    (∃ d, t = emitCode d (lenAt s.len d) 0 s) ∨ t = pad s ∨
      ∃ info, t = enter .encode (.outPut .abort (.aborted .truncatedStream info)) s := by
  cases tok with
  | byte d => exact .inl ⟨d, by simpa [encodeToken] using h.symm⟩
  | endStream => exact .inr (.inl (by simpa [encodeToken] using h.symm))
  | fail => exact .inr (.inr ⟨_, by simpa [encodeToken, raiseError, abortsStream] using h.symm⟩)
  | rsvd => exact .inr (.inr ⟨_, by simpa [encodeToken, raiseError, abortsStream] using h.symm⟩)

/-- R180 to R183. -/
theorem execEncode_next_cases {s t : State} (h : execEncode s = .next t) :
    t = s ∨
      (s.phase = .start ∧ s.tableValid = true ∧ t = enter .encode .inTake s) ∨
      (s.phase = .start ∧ t = latch .notReady (encode .encode) s) ∨
      (s.phase = .inTake ∧ ∃ tok rest, encodeToken tok { s with source := rest } = .next t) ∨
      ∃ tok k s', s.phase = .outPut tok k ∧ hasRoom s ∧ s' = { s with outq := s.outq ++ [tok] } ∧
        ((∃ d j, k = .codeBit d j ∧ t = emitCode d (lenAt s.len d - (j + 1)) (j + 1) (clearWrite s')) ∨
          (k = .padBit ∧ t = enter .encode (.outPut .endStream .ended) (clearWrite s')) ∨
          (k = .ended ∧ t = complete s') ∨
          ∃ e info, k = .aborted e info ∧ t = latch e info s') := by
  unfold execEncode at h
  split at h
  case h_1 hp =>
    split at h
    · exact .inr (.inl ⟨hp, ‹_›, by simpa using h.symm⟩)
    · exact .inr (.inr (.inl ⟨hp, by simpa [raiseError, abortsStream] using h.symm⟩))
  case h_2 hp =>
    obtain rfl | ⟨tok, rest, -, hk⟩ := inTake_next_cases h
    · exact .inl rfl
    · exact .inr (.inr (.inr (.inl ⟨hp, tok, rest, hk⟩)))
  case h_7 => simp at h
  case h_8 => simp at h
  all_goals
    rename_i hp
    obtain rfl | ⟨hroom, hk⟩ := outPut_next_cases h
    · exact .inl rfl
    · exact .inr (.inr (.inr (.inr ⟨_, _, _, hp, hroom, rfl, by simpa using hk.symm⟩)))

/-- R200, the token of InTake. -/
theorem decodeToken_next_cases {tok : InToken} {s t : State} (h : decodeToken tok s = .next t) :
    (∃ d, decodeBits 8 (loadByte d s) = .next t) ∨
      t = enter .decode (.outPut .endStream .ended) { s with dstate := Config.root } ∨
      ∃ info, t = enter .decode (.outPut .abort (.aborted .truncatedStream info)) s := by
  cases tok with
  | byte d => exact .inl ⟨d, h⟩
  | endStream => exact .inr (.inl (by simpa [decodeToken] using h.symm))
  | fail => exact .inr (.inr ⟨_, by simpa [decodeToken, raiseError, abortsStream] using h.symm⟩)
  | rsvd => exact .inr (.inr ⟨_, by simpa [decodeToken, raiseError, abortsStream] using h.symm⟩)

/-- R200 to R203. -/
theorem execDecode_next_cases {s t : State} (h : execDecode s = .next t) :
    t = s ∨
      (s.phase = .start ∧
        checkedTree .decode (fun s => decodeBits s.rcnt.toNat { s with dstate := Config.root }) s = .next t) ∨
      (s.phase = .inTake ∧ ∃ tok rest, decodeToken tok { s with source := rest } = .next t) ∨
      ∃ tok k s', s.phase = .outPut tok k ∧ hasRoom s ∧ s' = { s with outq := s.outq ++ [tok] } ∧
        ((k = .symbol ∧ decodeBits s.rcnt.toNat { s' with dstate := Config.root } = .next t) ∨
          (k = .ended ∧ t = complete s') ∨
          ∃ e info, k = .aborted e info ∧ t = latch e info s') := by
  unfold execDecode at h
  split at h
  case h_1 hp => exact .inr (.inl ⟨hp, h⟩)
  case h_2 hp =>
    obtain rfl | ⟨tok, rest, -, hk⟩ := inTake_next_cases h
    · exact .inl rfl
    · exact .inr (.inr (.inl ⟨hp, tok, rest, hk⟩))
  case h_3 tok hp =>
    obtain rfl | ⟨hroom, hk⟩ := outPut_next_cases h
    · exact .inl rfl
    · exact .inr (.inr (.inr ⟨tok, _, _, hp, hroom, rfl, .inl ⟨rfl, hk⟩⟩))
  case h_4 | h_5 =>
    rename_i hp
    obtain rfl | ⟨hroom, hk⟩ := outPut_next_cases h
    · exact .inl rfl
    · exact .inr (.inr (.inr ⟨_, _, _, hp, hroom, rfl, by simpa using hk.symm⟩))
  all_goals simp at h

/-- R140 to R146. -/
theorem execExtract_next_cases {s t : State} (h : execExtract s = .next t) :
    (∃ n c, treeCheck s.node = some (n, c) ∧
      t = latch .malformedTree (malformedInfo n c) (validity .checkFails s)) ∨
      (treeCheck s.node = none ∧
        ((∃ i, extractTable s.node = .error i ∧
          t = latch .codeLengthOverflow (BitVec.ofNat 32 i) (validity .codeLengthOverflow
            (forgetScratch ((validity .checkPasses s).withExtractor clearedExtractor)))) ∨
        ∃ x, extractTable s.node = .ok x ∧
          t = complete (validity .extractCompletes (forgetScratch ((validity .checkPasses s).withExtractor x))))) := by
  obtain hfail | ⟨hpass, hk⟩ := checkedTree_next_cases h
  · exact .inl hfail
  · refine .inr ⟨hpass, ?_⟩
    cases hx : extractTable s.node with
    | error i => exact .inl ⟨i, rfl, by simpa [validity, hx, raiseError, abortsStream] using hk.symm⟩
    | ok x => exact .inr ⟨x, rfl, by simpa [validity, hx] using hk.symm⟩

/-- R121. -/
theorem execCheck_next_cases {s t : State} (h : execCheck s = .next t) :
    (∃ n c, treeCheck s.node = some (n, c) ∧
      t = latch .malformedTree (malformedInfo n c) (validity .checkFails s)) ∨
      (treeCheck s.node = none ∧ t = complete (validity .checkPasses s)) := by
  obtain hfail | ⟨hpass, hk⟩ := checkedTree_next_cases h
  · exact .inl hfail
  · exact .inr ⟨hpass, by simpa using hk.symm⟩

end Sys2Proof.Machine

namespace Sys2Proof.Machine

/-! ## A passing arena (40_tree_builder.md R120) -/

/-- R120: a node that fails no condition is a leaf other than the root, or has both children above it. -/
theorem nodeCond_none (i : Nat) (n : Node) :
    nodeCond i n = none ↔
      (n.internal = false ∧ i ≠ 0) ∨
        (n.internal = true ∧ n.left ≠ Config.nil ∧ n.right ≠ Config.nil ∧ i < n.left.toNat ∧ i < n.right.toNat) := by
  cases hn : n.internal <;> simp [nodeCond, hn]
  by_cases hnil : n.left = Config.nil ∨ n.right = Config.nil
  · simp [hnil]
    tauto
  · simp [hnil]
    tauto

/-- R120, T1: a passing arena's root is internal. -/
theorem root_internal_of_treeCheck {a : Vector Node 511} (h : treeCheck a = none) :
    ∃ n, nodeAt a Config.root = some n ∧ n.internal = true := by
  have h0 := (nodeCond_none 0 a[0]).mp ((treeCheck_none a).mp h 0 (by omega))
  refine ⟨a[0], (nodeAt_eq_some ..).mpr ⟨by decide, rfl⟩, ?_⟩
  simp only [ne_eq, not_true_eq_false, and_false, false_or] at h0
  exact h0.1

/-- R201: a walk's bit leads to a node of the arena. -/
theorem nodeAt_of_walkBit {a : Vector Node 511} {i c : NodeIx} {b : Bool} {m : Node}
    (h : walkBit a i b = some (c, m)) : nodeAt a c = some m := by
  unfold walkBit at h
  split at h
  · simp at h
  · split at h
    · simp at h
    · simp only [Option.some.injEq, Prod.mk.injEq] at h
      obtain ⟨rfl, rfl⟩ := h
      assumption

/-! ## BUILD leaves a passing arena (40_tree_builder.md R110 to R115) -/

theorem firstMin_mem {l : List (Nat × Weight)} (h : l ≠ []) : ∃ v, (firstMin l, v) ∈ l := by
  cases l with
  | nil => exact absurd rfl h
  | cons x rest =>
    obtain ⟨v, hv, -, -⟩ := scanMin_spec rest x.1 x.2
    exact ⟨v, hv⟩

theorem mem_candidates {b : Builder} {p : Nat} {w : Weight} (h : (p, w) ∈ candidates b) : p < b.orph.length := by
  simp only [candidates, List.mem_map, Prod.mk.injEq] at h
  obtain ⟨⟨x, q⟩, hx, rfl, -⟩ := h
  exact List.snd_lt_of_mem_zipIdx hx

theorem exists_mem_candidates {b : Builder} {p : Nat} (h : p < b.orph.length) : ∃ w, (p, w) ∈ candidates b := by
  refine ⟨weightAt b.nodew b.orph[p], List.mem_map.mpr ⟨(b.orph[p], p), ?_, rfl⟩⟩
  exact List.mem_zipIdx_iff_getElem?.mpr (List.getElem?_eq_getElem h)

/-- R112: of two or more orphans, two different ones are selected. -/
theorem selectTwo_positions {b : Builder} (h : 2 ≤ b.orph.length) :
    (selectTwo (candidates b)).1 < b.orph.length ∧ (selectTwo (candidates b)).2 < b.orph.length ∧
      (selectTwo (candidates b)).1 ≠ (selectTwo (candidates b)).2 := by
  obtain ⟨u, hu⟩ := exists_mem_candidates (b := b) (p := 0) (by omega)
  obtain ⟨v, hv⟩ := firstMin_mem (List.ne_nil_of_mem hu)
  obtain ⟨q, hq, hqne⟩ : ∃ q < b.orph.length, q ≠ firstMin (candidates b) := by
    by_cases h0 : firstMin (candidates b) = 0
    · exact ⟨1, by omega, by omega⟩
    · exact ⟨0, by omega, fun h => h0 h.symm⟩
  obtain ⟨u', hu'⟩ := exists_mem_candidates hq
  have hrest : (q, u') ∈ (candidates b).filter (fun x => x.1 != firstMin (candidates b)) :=
    List.mem_filter.mpr ⟨hu', by simpa using hqne⟩
  obtain ⟨w, hw⟩ := firstMin_mem (List.ne_nil_of_mem hrest)
  obtain ⟨hmem, hne⟩ := List.mem_filter.mp hw
  exact ⟨mem_candidates hv, mem_candidates hmem, fun heq => (bne_iff_ne.mp hne) heq.symm⟩

/-- R111: `Remove` takes two entries out and leaves none that was not there. -/
theorem length_removeTwo {l : List NodeIx} {p q : Nat} (hp : p < l.length) (hq : q < l.length) (hne : p ≠ q) :
    (removeTwo l p q).length = l.length - 2 := by
  simp only [removeTwo, List.length_eraseIdx]
  grind

theorem mem_of_mem_removeTwo {l : List NodeIx} {p q : Nat} {x : NodeIx} (h : x ∈ removeTwo l p q) : x ∈ l :=
  List.mem_of_mem_eraseIdx (List.mem_of_mem_eraseIdx h)

/-- The loop invariant of R110 before the merge that writes node `n - 1`: `n + 1` orphans, all of them nodes from `n`
up, and every node from `n` up passes the check. -/
structure BuildsFrom (n : Nat) (b : Builder) : Prop where
  length : b.orph.length = n + 1
  orphan : ∀ x ∈ b.orph, n ≤ x.toNat ∧ x ≠ Config.nil
  passes : ∀ i (h : i < 511), n ≤ i → nodeCond i b.node[i] = none

theorem BuildsFrom.merge {n : Nat} {b : Builder} (h : BuildsFrom (n + 1) b) (hn : n < 255) :
    BuildsFrom n (merge n b) := by
  obtain ⟨hp, hq, hne⟩ := selectTwo_positions (b := b) (by rw [h.length]; omega)
  refine ⟨?_, ?_, ?_⟩
  · have := length_removeTwo hp hq hne
    simp [Machine.merge, this, h.length]
  · intro x hx
    rcases List.mem_append.mp hx with hx | hx
    · have := h.orphan x (mem_of_mem_removeTwo hx)
      exact ⟨by omega, this.2⟩
    · obtain rfl : x = BitVec.ofNat 9 n := by simpa using hx
      have htoNat : (BitVec.ofNat 9 n).toNat = n := by simp; omega
      refine ⟨by omega, fun hnil => ?_⟩
      rw [hnil] at htoNat
      simp [Config.nil] at htoNat
      omega
  · intro i hi hni
    by_cases hin : i = n
    · subst hin
      have hl := h.orphan _ (List.getElem_mem hp)
      have hr := h.orphan _ (List.getElem_mem hq)
      refine (nodeCond_none _ _).mpr (.inr ?_)
      simp only [Machine.merge, Vector.getElem_setIfInBounds_self, Node.inner, List.getD_eq_getElem _ _ hp,
        List.getD_eq_getElem _ _ hq]
      exact ⟨trivial, hl.2, hr.2, hl.1, hr.1⟩
    · have hsame : (Machine.merge n b).node[i] = b.node[i] := by
        simpa [hi] using merge_node_ne n b i hin
      rw [hsame]
      exact h.passes i hi (by omega)

theorem BuildsFrom.mergeDown {n : Nat} {b : Builder} (h : BuildsFrom n b) (hn : n ≤ 255) :
    BuildsFrom 0 (mergeDown n b) := by
  induction n generalizing b with
  | zero => exact h
  | succ n ih => exact ih (h.merge (by omega)) (by omega)

theorem buildsFrom_leaves (w : Vector Word 256) (b : Builder) :
    BuildsFrom 255 { writeLeaves w 256 b with orph := firstOrphans } := by
  refine ⟨by simp [firstOrphans], ?_, ?_⟩
  · intro x hx
    obtain ⟨p, hp, rfl⟩ := List.mem_map.mp hx
    have hp := List.mem_range.mp hp
    have htoNat : (BitVec.ofNat 9 (255 + p)).toNat = 255 + p := by simp; omega
    refine ⟨by omega, fun hnil => ?_⟩
    rw [hnil] at htoNat
    simp [Config.nil] at htoNat
    omega
  · intro i hi hle
    have hleaf := (writeLeaves_leaf w b 256 (i - 255) (le_refl _) (by omega)).1
    rw [Nat.add_sub_cancel' hle] at hleaf
    have hleaf : (writeLeaves w 256 b).node[i] = Node.leaf (BitVec.ofNat 8 (i - 255)) := by simpa [hi] using hleaf
    exact (nodeCond_none _ _).mpr (.inl ⟨by rw [hleaf]; rfl, by omega⟩)

/-- R115: BUILD's arena passes the tree check. -/
theorem treeCheck_buildTree (w : Vector Word 256) (b : Builder) : treeCheck (buildTree w b).node = none :=
  (treeCheck_none _).mpr fun i hi => ((buildsFrom_leaves w b).mergeDown (le_refl _)).passes i hi (Nat.zero_le i)

/-! ## EXTRACT leaves no code bit at LEN or above (41_code_extractor.md R143, R144) -/

/-- The bits of every partial code from DEPTH on are 0, and those of every stored code from LEN on. -/
def ExtractorTailOk (x : Extractor) : Prop :=
  (∀ i j, depthAt x i ≤ j → codeBit (accAt x i) j = false) ∧
    ∀ (s : Byte) j, lenAt x.len s ≤ j → codeBit (codeAt x.code s) j = false

theorem extractorTailOk_cleared : ExtractorTailOk clearedExtractor := by
  refine ⟨fun i j _ => ?_, fun s j _ => by simp [codeAt, clearedExtractor]⟩
  by_cases hi : i < 511 <;> simp [accAt, clearedExtractor, hi]

theorem depthAt_pushChild (i c : Nat) (d : Nat) (n : NodeIx) (b : Bool) (x : Extractor) (hd : d < 255) :
    depthAt (pushChild i d n b x) c = if n.toNat = c ∧ c < 511 then d + 1 else depthAt x c := by
  simp only [depthAt, pushChild, Vector.getElem?_setIfInBounds]
  by_cases hn : n.toNat = c <;> by_cases hc : c < 511 <;> simp [hn, hc]
  omega

theorem accAt_pushChild (i c : Nat) (d : Nat) (n : NodeIx) (b : Bool) (x : Extractor) :
    accAt (pushChild i d n b x) c = if n.toNat = c ∧ c < 511 then setMsb (accAt x i) d b else accAt x c := by
  simp only [accAt, pushChild, Vector.getElem?_setIfInBounds]
  by_cases hn : n.toNat = c <;> by_cases hc : c < 511 <;> simp [hn, hc]

/-- R143: a child's bits are its parent's and one more. That the parent may already be its own child of depth `d + 1`
costs nothing here, so no passing arena is asked for. -/
theorem ExtractorTailOk.pushChild {x : Extractor} (h : ExtractorTailOk x) {i d : Nat} (n : NodeIx) (b : Bool)
    (hi : depthAt x i ≤ d + 1) (hd : d < 255) : ExtractorTailOk (pushChild i d n b x) := by
  refine ⟨fun c j hj => ?_, h.2⟩
  rw [depthAt_pushChild _ _ _ _ _ _ hd] at hj
  rw [accAt_pushChild]
  split
  · rename_i hc
    rw [if_pos hc] at hj
    rw [codeBit_setMsb _ _ _ _ (by omega), if_neg (by omega)]
    exact h.1 i j (by omega)
  · rename_i hc
    rw [if_neg hc] at hj
    exact h.1 c j hj

theorem ExtractorTailOk.recordLeaf {x : Extractor} (h : ExtractorTailOk x) (i : Nat) (s : Byte) :
    ExtractorTailOk (recordLeaf i s x) := by
  refine ⟨h.1, fun s' j hj => ?_⟩
  by_cases hs : s' = s
  · subst hs
    have hlen : lenAt (Machine.recordLeaf i s' x).len s' = depthAt x i := by
      simp [lenAt, Machine.recordLeaf, depthAt]
    have hcode : codeAt (Machine.recordLeaf i s' x).code s' = accAt x i := by
      simp [codeAt, Machine.recordLeaf]
    rw [hcode]
    exact h.1 i j (by omega)
  · have hne : s.toNat ≠ s'.toNat := fun heq => hs (BitVec.eq_of_toNat_eq heq.symm)
    have hlen : lenAt (Machine.recordLeaf i s x).len s' = lenAt x.len s' := by
      simp [lenAt, Machine.recordLeaf, hne]
    have hcode : codeAt (Machine.recordLeaf i s x).code s' = codeAt x.code s' := by
      simp [codeAt, Machine.recordLeaf, hne]
    rw [hcode]
    exact h.2 s' j (by omega)

theorem depthAt_lt (x : Extractor) (i : Nat) : depthAt x i < 256 := (x.depth[i]?.getD 0#8).isLt

theorem ExtractorTailOk.extractFrom {l : List Node} {x y : Extractor} (h : ExtractorTailOk x) {i : Nat}
    (hy : extractFrom i l x = .ok y) : ExtractorTailOk y := by
  induction l generalizing i x with
  | nil =>
    obtain rfl : x = y := by simpa [Machine.extractFrom] using hy
    exact h
  | cons n rest ih =>
    simp only [Machine.extractFrom] at hy
    split at hy
    · split at hy
      · simp at hy
      · rename_i hmax
        have hlt : depthAt x i < 255 := by
          have := depthAt_lt x i
          simp only [Config.maxCodeLen] at hmax
          omega
        have hleft := h.pushChild (i := i) n.left false (Nat.le_succ _) hlt
        refine ih (hleft.pushChild n.right true ?_ hlt) hy
        rw [depthAt_pushChild _ _ _ _ _ _ hlt]
        split <;> omega
    · exact ih (h.recordLeaf i n.symbol) hy

theorem extractorTailOk_extractTable {a : Vector Node 511} {x : Extractor} (h : extractTable a = .ok x) :
    ExtractorTailOk x :=
  extractorTailOk_cleared.extractFrom h

end Sys2Proof.Machine

namespace Sys2Proof.Machine

/-! ## The invariant inside an atomic step of the engine -/

/-- What holds of the state from the start of an atomic step of `i`, not CLEAR, to its end: the invariant but for the
write cursor and the phase, which the step is about to change. -/
def MidStep (i : Instr) (s : State) : Prop :=
  s.done = false ∧ s.err = false ∧ s.errCode = 0#4 ∧ s.errInfo = 0#32 ∧ s.op = (encode i).extractLsb' 0 4 ∧
    ValidityOk s ∧ TableTailOk s ∧ s.outq.length ≤ Config.outCap

/-- R36 outside a flush: the bits of WBUF below those held are 0. -/
def WriteClean (s : State) : Prop := ∀ j, s.wcnt.toNat ≤ j → s.wbuf.getMsbD j = false

section Start
variable {i : Instr} {p : Phase} {s : State}

theorem phase_of_runs (hrun : Runs i p s) : s.phase = p := by
  have heng : s.engine = .run (encode i) p := hrun
  simp [State.phase, heng]

theorem MachineInv.midStep (h : MachineInv s) (hrun : Runs i p s) (hi : i ≠ .clear) : MidStep i s := by
  obtain ⟨i', hdec, hdone, hop, herr, -⟩ := h.engine _ _ hrun
  obtain rfl : i = i' := by simpa using hdec
  have hnoErr : s.err = false := by
    cases hs : s.err with
    | false => rfl
    | true => exact absurd (herr hs) hi
  obtain ⟨hcode, hinfo⟩ := h.errorLatch.2 hnoErr
  exact ⟨hdone, hnoErr, hcode, hinfo, hop, h.validity, h.tableTail, h.queue⟩

theorem MachineInv.phaseOk (h : MachineInv s) (hrun : Runs i p s) : PhaseOk s i p := by
  obtain ⟨i', hdec, -, -, -, hphase⟩ := h.engine _ _ hrun
  obtain rfl : i = i' := by simpa using hdec
  exact hphase

/-- A command inside no flush holds no bits below the counted ones. -/
theorem MachineInv.writeClean (h : MachineInv s) (hrun : Runs i p s)
    (hp : ∀ t, p ≠ .outPut t .bitWritten ∧ p ≠ .outPut t .padBit ∧ ∀ x j, p ≠ .outPut t (.codeBit x j)) :
    WriteClean s := by
  refine h.writeCursor.resolve_left ?_
  have heng : s.engine = .run (encode i) p := hrun
  rintro ⟨w, d, hf | hf | ⟨x, j, hf⟩⟩ <;> rw [heng] at hf <;> injection hf with _ hp'
  · exact (hp _).1 hp'
  · exact (hp _).2.1 hp'
  · exact (hp _).2.2 _ _ hp'

/-- A command that has no OutPut of its own holds no bits below the counted ones. -/
theorem MachineInv.writeClean_of_noOutPut (h : MachineInv s) (hrun : Runs i p s) (hi : ∀ t k, ¬ OutPutOk s t k i) :
    WriteClean s := by
  refine h.writeClean hrun fun t => ?_
  have hp := h.phaseOk hrun
  refine ⟨?_, ?_, fun x j => ?_⟩ <;> rintro rfl <;> exact hi _ _ hp

end Start

section Exits
variable {i : Instr} {s : State}

/-! ### How an atomic step ends: each way out gives the invariant back -/

theorem MidStep.inv_complete (h : MidStep i s) (hw : WriteClean s) : MachineInv (complete s) := by
  obtain ⟨-, herr, hcode, hinfo, -, hval, htail, hq⟩ := h
  exact ⟨⟨by simp [herr], fun _ => ⟨hcode, hinfo⟩⟩, by simp [herr], hval, htail, .inr hw, hq, by simp [EngineOk]⟩

theorem MidStep.inv_latch (h : MidStep i s) (hw : WriteClean s) (e : ErrorKind) (info : Word) :
    MachineInv (latch e info s) := by
  obtain ⟨hdone, -, -, -, -, hval, htail, hq⟩ := h
  exact ⟨⟨fun _ => e.code_range, by simp⟩, by simp [hdone], hval, htail, .inr hw, hq, by simp [EngineOk]⟩

theorem MidStep.inv_enter {p : Phase} (h : MidStep i s) (hw : WriteCursorOk (enter i p s)) (hp : PhaseOk s i p) :
    MachineInv (enter i p s) := by
  obtain ⟨hdone, herr, hcode, hinfo, hop, hval, htail, hq⟩ := h
  refine ⟨⟨by simp [herr], fun _ => ⟨hcode, hinfo⟩⟩, by simp [hdone], hval, htail, hw, hq, ?_⟩
  intro w p' hrun
  obtain ⟨rfl, rfl⟩ : encode i = w ∧ p = p' := by simpa using hrun
  refine ⟨i, decode_encode i, hdone, hop, by simp [herr], ?_⟩
  cases p <;> exact hp

/-! ### PutBit (R160) -/

theorem toNat_wcnt_shiftIn {b : Bool} (h : s.wcnt ≠ 7#3) : (shiftIn b s).wcnt.toNat = s.wcnt.toNat + 1 := by
  have hlt : s.wcnt.toNat < 7 := by bv_omega
  simp [flushDue, h]
  omega

theorem WriteClean.shiftIn {b : Bool} (h : WriteClean s) (hne : s.wcnt ≠ 7#3) : WriteClean (shiftIn b s) := by
  intro j hj
  rw [toNat_wcnt_shiftIn hne] at hj
  rw [shiftIn_wbuf, getMsbD_setMsb _ _ _ _ (by omega), if_neg (by omega)]
  exact h j (by omega)

/-- PutBit keeps the invariant when the flush it may begin is one of the command's own and the command goes on well when
it does not. -/
theorem MidStep.inv_putBit {k : AfterOut} {b : Bool} {go : State → State} (h : MidStep i s)
    (hk : k = .bitWritten ∨ k = .padBit ∨ ∃ x j, k = .codeBit x j)
    (hflush : (shiftIn b s).wcnt = 7#3 → OutPutOk (shiftIn b s) (.byte (shiftIn b s).wbuf) k i)
    (hgo : s.wcnt ≠ 7#3 → MachineInv (go (shiftIn b s))) : MachineInv (putBit i k b go s) := by
  obtain ⟨h7, hput⟩ | ⟨hne, hput⟩ := putBit_cases i k b go s
  · rw [hput]
    have hmid : MidStep i (Machine.shiftIn b s) := h
    refine hmid.inv_enter (.inl ⟨encode i, (Machine.shiftIn b s).wbuf, ?_⟩) (hflush (by simp [flushDue, h7]))
    obtain rfl | rfl | ⟨x, j, rfl⟩ := hk
    · exact .inl rfl
    · exact .inr (.inl rfl)
    · exact .inr (.inr ⟨x, j, rfl⟩)
  · rw [hput]
    exact hgo hne

theorem writeClean_clearWrite (s : State) : WriteClean (clearWrite s) := by simp [WriteClean]

theorem MidStep.clearWrite (h : MidStep i s) : MidStep i (clearWrite s) := h

/-- A token that went into the OUT queue had room there. -/
theorem MidStep.afterOut {t : OutToken} (h : MidStep i s) (hroom : hasRoom s) :
    MidStep i { s with outq := s.outq ++ [t] } := by
  obtain ⟨hdone, herr, hcode, hinfo, hop, hval, htail, -⟩ := h
  exact ⟨hdone, herr, hcode, hinfo, hop, hval, htail, by simpa [hasRoom, Nat.succ_le_iff] using hroom⟩

/-! ### The tree check's two ends (R43, R44) -/

theorem MidStep.checkPasses (h : MidStep i s) (hpass : treeCheck s.node = none) :
    MidStep i (validity .checkPasses s) := by
  obtain ⟨hdone, herr, hcode, hinfo, hop, -, htail, hq⟩ := h
  exact ⟨hdone, herr, hcode, hinfo, hop, ⟨fun _ => rfl, fun _ => hpass⟩, htail, hq⟩

/-- A failing arena was not valid before, and so neither was its table. -/
theorem MidStep.checkFails (h : MidStep i s) {x : Nat × TreeCond} (hfail : treeCheck s.node = some x) :
    MidStep i (validity .checkFails s) := by
  obtain ⟨hdone, herr, hcode, hinfo, hop, hval, htail, hq⟩ := h
  refine ⟨hdone, herr, hcode, hinfo, hop, ⟨fun htable => ?_, by simp [validity]⟩, htail, hq⟩
  have hpass := hval.2 (hval.1 htable)
  simp [hpass] at hfail

/-! ### BUILD's and EXTRACT's results written back -/

theorem MidStep.builds (h : MidStep i s) {b : Builder} (hb : treeCheck b.node = none) :
    MidStep i (validity .buildCompletes (forgetOrph (s.withBuilder b))) := by
  obtain ⟨hdone, herr, hcode, hinfo, hop, -, htail, hq⟩ := h
  exact ⟨hdone, herr, hcode, hinfo, hop, ⟨by simp [validity], fun _ => hb⟩, htail, hq⟩

theorem MidStep.extracts (h : MidStep i s) {x : Extractor} (hx : ExtractorTailOk x) :
    MidStep i (forgetScratch (s.withExtractor x)) := by
  obtain ⟨hdone, herr, hcode, hinfo, hop, hval, -, hq⟩ := h
  exact ⟨hdone, herr, hcode, hinfo, hop, hval, hx.2, hq⟩

theorem MidStep.overflows (h : MidStep i s) : MidStep i (validity .codeLengthOverflow s) := by
  obtain ⟨hdone, herr, hcode, hinfo, hop, hval, htail, hq⟩ := h
  exact ⟨hdone, herr, hcode, hinfo, hop, ⟨by simp [validity], hval.2⟩, htail, hq⟩

theorem MidStep.extractCompletes (h : MidStep i s) (hvalid : s.treeValid = true) :
    MidStep i (validity .extractCompletes s) := by
  obtain ⟨hdone, herr, hcode, hinfo, hop, hval, htail, hq⟩ := h
  exact ⟨hdone, herr, hcode, hinfo, hop, ⟨fun _ => hvalid, hval.2⟩, htail, hq⟩

end Exits

/-! ## Every command keeps the invariant -/

section Commands
variable {p : Phase} {s t : State}

theorem execNop_inv (h : MachineInv s) (hrun : Runs .nop p s) (ht : execNop s = .next t) : MachineInv t := by
  obtain rfl : complete s = t := by simpa [execNop] using ht
  exact (h.midStep hrun (by simp)).inv_complete (h.writeClean_of_noOutPut hrun fun _ _ => id)

/-- CLEAR is the one command that may start with an error latched, and it leaves none (R222). -/
theorem execClear_inv (h : MachineInv s) (ht : execClear s = .next t) : MachineInv t := by
  obtain rfl : complete (clearError s) = t := by simpa [execClear] using ht
  exact ⟨by simp [ErrorLatchOk, clearError], by simp [clearError], h.validity, h.tableTail,
    .inr (by simp [clearError]), h.queue, by simp [EngineOk]⟩

theorem execBuild_inv (h : MachineInv s) (hrun : Runs .build p s) (ht : execBuild s = .next t) : MachineInv t := by
  have hpass := treeCheck_buildTree s.weight s.builder
  have hclean := h.writeClean_of_noOutPut hrun fun _ _ => id
  unfold execBuild at ht
  generalize buildTree s.weight s.builder = b at ht hpass
  obtain rfl := Host.Outcome.next.inj ht
  exact ((h.midStep hrun (by simp)).builds hpass).inv_complete hclean

theorem execCheck_inv (h : MachineInv s) (hrun : Runs .check p s) (ht : execCheck s = .next t) : MachineInv t := by
  have hmid := h.midStep hrun (by simp)
  have hclean := h.writeClean_of_noOutPut hrun fun _ _ => id
  obtain ⟨n, c, hfail, rfl⟩ | ⟨hpass, rfl⟩ := execCheck_next_cases ht
  · exact (hmid.checkFails hfail).inv_latch hclean _ _
  · exact (hmid.checkPasses hpass).inv_complete hclean

theorem execExtract_inv (h : MachineInv s) (hrun : Runs .extract p s) (ht : execExtract s = .next t) :
    MachineInv t := by
  have hmid := h.midStep hrun (by simp)
  have hclean := h.writeClean_of_noOutPut hrun fun _ _ => id
  obtain ⟨n, c, hfail, rfl⟩ | ⟨hpass, ⟨i, -, rfl⟩ | ⟨x, hx, rfl⟩⟩ := execExtract_next_cases ht
  · exact (hmid.checkFails hfail).inv_latch hclean _ _
  · exact ((hmid.checkPasses hpass).extracts extractorTailOk_cleared).overflows.inv_latch hclean _ _
  · have hextracted := (hmid.checkPasses hpass).extracts (extractorTailOk_extractTable hx)
    exact (hextracted.extractCompletes rfl).inv_complete hclean

theorem execWbit_inv {b : Bool} (h : MachineInv s) (hrun : Runs (.wbit b) p s) (ht : execWbit b s = .next t) :
    MachineInv t := by
  have hmid := h.midStep hrun (by simp)
  have hphase := phase_of_runs hrun
  obtain rfl | ⟨hp, rfl⟩ | ⟨tok, hp, hroom, rfl⟩ := execWbit_next_cases ht
  · exact h
  · obtain rfl : p = .start := hphase.symm.trans hp
    have hclean := h.writeClean hrun (by simp)
    exact hmid.inv_putBit (.inl rfl) (fun h7 => ⟨rfl, h7, rfl⟩)
      fun hne => MidStep.inv_complete hmid (hclean.shiftIn hne)
  · exact (hmid.afterOut hroom).clearWrite.inv_complete (writeClean_clearWrite _)

theorem execWclose_inv (h : MachineInv s) (hrun : Runs .wclose p s) (ht : execWclose s = .next t) :
    MachineInv t := by
  have hmid := h.midStep hrun (by simp)
  have hphase := phase_of_runs hrun
  obtain rfl | ⟨hp, h0, rfl⟩ | ⟨hp, h0, rfl⟩ | ⟨tok, hp, hroom, rfl⟩ | ⟨tok, e, info, hp, hroom, rfl⟩ :=
    execWclose_next_cases ht
  · exact h
  · obtain rfl := hphase.symm.trans hp
    exact hmid.inv_enter (.inr (h.writeClean hrun (by simp))) ⟨h0, rfl⟩
  · obtain rfl := hphase.symm.trans hp
    exact hmid.inv_enter (.inr (h.writeClean hrun (by simp))) ⟨h0, rfl, rfl, rfl⟩
  · obtain rfl := hphase.symm.trans hp
    exact (hmid.afterOut hroom).inv_complete (h.writeClean hrun (by simp))
  · obtain rfl := hphase.symm.trans hp
    exact (hmid.afterOut hroom).inv_latch (h.writeClean hrun (by simp)) _ _

theorem execRbit_inv (h : MachineInv s) (hrun : Runs .rbit p s) (ht : execRbit s = .next t) : MachineInv t := by
  have hmid := h.midStep hrun (by simp)
  have hclean := h.writeClean_of_noOutPut hrun fun _ _ => id
  obtain rfl | ⟨-, h0, rfl⟩ | ⟨-, n, rfl⟩ | ⟨-, tok, rest, hread⟩ := execRbit_next_cases ht
  · exact h
  · exact hmid.inv_enter (.inr hclean) h0
  · exact MidStep.inv_complete (i := .rbit) hmid hclean
  · obtain ⟨d, rfl⟩ | rfl | ⟨info, rfl⟩ := readToken_next_cases hread
    · exact MidStep.inv_complete (i := .rbit) hmid hclean
    · exact MidStep.inv_complete (i := .rbit) hmid hclean
    · exact MidStep.inv_latch (i := .rbit) (s := { s with source := rest }) hmid hclean _ _

/-! ### ENCODE (R180 to R183) -/

theorem emitCode_inv (d : Byte) {n j : Nat} (h : MidStep .encode s) (hw : WriteClean s) (htable : s.tableValid = true)
    (hn : j + n = lenAt s.len d) : MachineInv (emitCode d n j s) := by
  induction n generalizing j s with
  | zero => exact h.inv_enter (.inr hw) htable
  | succ n ih =>
    refine h.inv_putBit (.inr (.inr ⟨d, j, rfl⟩)) (fun h7 => ⟨htable, h7, rfl, ?_⟩) fun hne => ?_
    · change j < lenAt s.len d
      omega
    · exact ih h (hw.shiftIn hne) htable (by simpa using (by omega : j + 1 + n = lenAt s.len d))

/-- R182: with `n` bits missing to the byte boundary, the last padding bit flushes, so that the pad never ends on a byte
begun. -/
theorem emitPad_inv (x : Byte) {n j : Nat} (h : MidStep .encode s) (hw : WriteClean s) (htable : s.tableValid = true)
    (hn : n + s.wcnt.toNat = 8) : MachineInv (emitPad x n j s) := by
  induction n generalizing j s with
  | zero => have := s.wcnt.isLt; omega
  | succ n ih =>
    refine h.inv_putBit (.inr (.inl rfl)) (fun h7 => ⟨htable, h7, rfl⟩) fun hne => ?_
    exact ih h (hw.shiftIn hne) htable (by rw [toNat_wcnt_shiftIn hne]; omega)

theorem pad_inv (h : MidStep .encode s) (hw : WriteClean s) (htable : s.tableValid = true) : MachineInv (pad s) := by
  unfold pad
  split
  · rename_i h0
    exact h.inv_enter (.inr hw) ⟨htable, h0, rfl⟩
  · rename_i h0
    split
    · exact h.inv_enter (.inr hw) ⟨htable, rfl, .inr ⟨rfl, h0, rfl⟩⟩
    · exact emitPad_inv _ h hw htable (by have := s.wcnt.isLt; omega)

theorem encodeToken_inv {tok : InToken} (h : MidStep .encode s) (hw : WriteClean s) (htable : s.tableValid = true)
    (ht : encodeToken tok s = .next t) : MachineInv t := by
  obtain ⟨d, rfl⟩ | rfl | ⟨info, rfl⟩ := encodeToken_next_cases ht
  · exact emitCode_inv d h hw htable (Nat.zero_add _)
  · exact pad_inv h hw htable
  · exact h.inv_enter (.inr hw) ⟨htable, rfl, .inl rfl⟩

theorem execEncode_inv (h : MachineInv s) (hrun : Runs .encode p s) (ht : execEncode s = .next t) :
    MachineInv t := by
  have hmid := h.midStep hrun (by simp)
  have hok := h.phaseOk hrun
  have hphase := phase_of_runs hrun
  obtain rfl | ⟨hp, htable, rfl⟩ | ⟨hp, rfl⟩ | ⟨hp, tok, rest, htok⟩ | ⟨tok, k, s', hp, hroom, rfl, hout⟩ :=
    execEncode_next_cases ht
  · exact h
  · obtain rfl := hphase.symm.trans hp
    exact hmid.inv_enter (.inr (h.writeClean hrun (by simp))) htable
  · obtain rfl := hphase.symm.trans hp
    exact hmid.inv_latch (h.writeClean hrun (by simp)) _ _
  · obtain rfl := hphase.symm.trans hp
    exact encodeToken_inv (s := { s with source := rest }) hmid (h.writeClean hrun (by simp)) hok htok
  · obtain rfl := hphase.symm.trans hp
    have hmid' := hmid.afterOut (t := tok) hroom
    obtain ⟨d, j, rfl, rfl⟩ | ⟨rfl, rfl⟩ | ⟨rfl, rfl⟩ | ⟨e, info, rfl, rfl⟩ := hout
    · obtain ⟨htable, -, -, hj⟩ := hok
      exact emitCode_inv d hmid'.clearWrite (writeClean_clearWrite _) htable (Nat.add_sub_cancel' hj)
    · have hclean := writeClean_clearWrite { s with outq := s.outq ++ [tok] }
      exact hmid'.clearWrite.inv_enter (.inr hclean) ⟨hok.1, rfl, rfl⟩
    · exact hmid'.inv_complete (h.writeClean hrun (by simp))
    · exact hmid'.inv_latch (h.writeClean hrun (by simp)) _ _

/-! ### DECODE (R200 to R203) -/

theorem decodeBits_inv {n : Nat} (h : MidStep .decode s) (hw : WriteClean s) (hvalid : s.treeValid = true)
    (hnode : ∃ m, nodeAt s.node s.dstate = some m ∧ m.internal = true) (ht : decodeBits n s = .next t) :
    MachineInv t := by
  induction n generalizing s with
  | zero =>
    obtain rfl := Host.Outcome.next.inj ht
    exact MidStep.inv_enter (s := setRcnt 0 s) h (.inr hw) ⟨hvalid, rfl, hnode⟩
  | succ n ih =>
    rw [decodeBits] at ht
    split at ht
    · simp at ht
    · rename_i c m hwalk
      have hm := nodeAt_of_walkBit hwalk
      split at ht
      · rename_i hint
        exact ih (s := { setRcnt n s with dstate := c }) h hw hvalid ⟨m, hm, hint⟩ ht
      · rename_i hleaf
        obtain rfl := Host.Outcome.next.inj ht
        exact MidStep.inv_enter (s := { setRcnt n s with dstate := c }) h (.inr hw)
          ⟨hvalid, m, hm, by simpa using hleaf, rfl⟩

/-- R200: a walk may start at the root of a passing arena. -/
theorem decodeBits_root_inv {n : Nat} (h : MidStep .decode s) (hw : WriteClean s) (hvalid : s.treeValid = true)
    (ht : decodeBits n { s with dstate := Config.root } = .next t) : MachineInv t := by
  obtain ⟨-, -, -, -, -, hval, -, -⟩ := id h
  exact decodeBits_inv (s := { s with dstate := Config.root }) h hw hvalid
    (root_internal_of_treeCheck (hval.2 hvalid)) ht

theorem decodeToken_inv {tok : InToken} (h : MidStep .decode s) (hw : WriteClean s) (hok : InTakeOk s .decode)
    (ht : decodeToken tok s = .next t) : MachineInv t := by
  obtain ⟨hvalid, h0, hnode⟩ := hok
  obtain ⟨d, hbits⟩ | rfl | ⟨info, rfl⟩ := decodeToken_next_cases ht
  · exact decodeBits_inv (s := loadByte d s) h hw hvalid hnode hbits
  · exact MidStep.inv_enter (s := { s with dstate := Config.root }) h (.inr hw) ⟨hvalid, h0, rfl, rfl⟩
  · exact h.inv_enter (.inr hw) ⟨hvalid, h0, rfl, rfl⟩

theorem execDecode_inv (h : MachineInv s) (hrun : Runs .decode p s) (ht : execDecode s = .next t) :
    MachineInv t := by
  have hmid := h.midStep hrun (by simp)
  have hok := h.phaseOk hrun
  have hphase := phase_of_runs hrun
  obtain rfl | ⟨hp, hstart⟩ | ⟨hp, tok, rest, htok⟩ | ⟨tok, k, s', hp, hroom, rfl, hout⟩ :=
    execDecode_next_cases ht
  · exact h
  · obtain rfl := hphase.symm.trans hp
    have hclean := h.writeClean hrun (by simp)
    obtain ⟨n, c, hfail, rfl⟩ | ⟨hpass, hbits⟩ := checkedTree_next_cases hstart
    · exact (hmid.checkFails hfail).inv_latch hclean _ _
    · exact decodeBits_root_inv (hmid.checkPasses hpass) hclean rfl hbits
  · obtain rfl := hphase.symm.trans hp
    exact decodeToken_inv (s := { s with source := rest }) hmid (h.writeClean hrun (by simp)) hok htok
  · obtain rfl := hphase.symm.trans hp
    have hmid' := hmid.afterOut (t := tok) hroom
    obtain ⟨rfl, hbits⟩ | ⟨rfl, rfl⟩ | ⟨e, info, rfl, rfl⟩ := hout
    · exact decodeBits_root_inv hmid' (h.writeClean hrun (by simp)) hok.1 hbits
    · exact hmid'.inv_complete (h.writeClean hrun (by simp))
    · exact hmid'.inv_latch (h.writeClean hrun (by simp)) _ _

/-- Every atomic step of a running command keeps the invariant. -/
theorem exec_inv {i : Instr} (h : MachineInv s) (hrun : Runs i p s) (ht : exec i s = .next t) : MachineInv t := by
  cases i with
  | nop => exact execNop_inv h hrun ht
  | build => exact execBuild_inv h hrun ht
  | check => exact execCheck_inv h hrun ht
  | extract => exact execExtract_inv h hrun ht
  | encode => exact execEncode_inv h hrun ht
  | decode => exact execDecode_inv h hrun ht
  | wbit b => exact execWbit_inv h hrun ht
  | wclose => exact execWclose_inv h hrun ht
  | rbit => exact execRbit_inv h hrun ht
  | clear => exact execClear_inv h ht

end Commands

/-! ## Every other move keeps the invariant -/

section Moves
variable {s t : State}

theorem MachineInv.of_onlyEnvironmentChanged (h : MachineInv s) (henv : OnlyEnvironmentChanged s t) :
    MachineInv t := by
  obtain ⟨ht, hlen⟩ := henv
  rw [ht]
  exact ⟨h.errorLatch, h.doneErr, h.validity, h.tableTail, h.writeCursor, hlen.trans h.queue, h.engine⟩

theorem MachineInv.drop (h : MachineInv s) : MachineInv (drop s) :=
  ⟨h.errorLatch, h.doneErr, h.validity, h.tableTail, h.writeCursor, h.queue, h.engine⟩

/-- R23: clearing DONE cannot hurt, also while a command runs. -/
theorem MachineInv.writeStatus (h : MachineInv s) (v : Word) : MachineInv (writeStatus v s) := by
  refine ⟨h.errorLatch, fun hboth => h.doneErr ⟨?_, hboth.2⟩, h.validity, h.tableTail, h.writeCursor, h.queue, ?_⟩
  · have hdone : (s.done && !v.getLsbD 1) = true := hboth.1
    simp only [Bool.and_eq_true] at hdone
    exact hdone.1
  · intro w p hrun
    obtain ⟨i, hdec, hdone, hop, herr, hphase⟩ := h.engine w p hrun
    refine ⟨i, hdec, by simp [Machine.writeStatus, hdone], hop, herr, ?_⟩
    cases p <;> exact hphase

/-- Nothing is known of the phase of a command that does not run. -/
theorem engineOk_of_idle (hidle : s.engine = .idle) : EngineOk s := by simp [EngineOk, hidle]

theorem writeClean_of_idle (h : MachineInv s) (hidle : s.engine = .idle) : WriteClean s :=
  h.writeCursor.resolve_left (by simp [inFlush, hidle])

theorem machineInv_reset : MachineInv State.reset := by
  have hlatch : ErrorLatchOk State.reset := ⟨by simp [State.reset], fun _ => ⟨rfl, rfl⟩⟩
  have hval : ValidityOk State.reset := by simp [ValidityOk, State.reset]
  have htail : TableTailOk State.reset := fun x j _ => by simp [codeAt, State.reset]
  have hclean : WriteClean State.reset := by simp [WriteClean, State.reset]
  exact ⟨hlatch, by simp [State.reset], hval, htail, .inr hclean, Nat.zero_le _, engineOk_of_idle rfl⟩

/-- R271: the soft reset differs from the reset in what the invariant does not read, but for the OUT queue. -/
theorem MachineInv.softReset (h : MachineInv s) : MachineInv (softReset s) :=
  ⟨machineInv_reset.errorLatch, machineInv_reset.doneErr, machineInv_reset.validity, machineInv_reset.tableTail,
    machineInv_reset.writeCursor, h.queue, engineOk_of_idle rfl⟩

/-- R43: an accepted NODE write takes both validity flags back. -/
theorem MachineInv.writeNode (h : MachineInv s) (hidle : s.engine = .idle) (i : Fin 511) (v : Word) :
    MachineInv (writeNode i v s) := by
  have hclean := writeClean_of_idle h hidle
  have hval : ValidityOk (Machine.writeNode i v s) := by simp [ValidityOk, Machine.writeNode, Machine.validity]
  exact ⟨h.errorLatch, h.doneErr, hval, h.tableTail, .inr hclean, h.queue, engineOk_of_idle hidle⟩

/-- R220: a command starts with DONE = 0, and under a latched error only CLEAR does. -/
theorem MachineInv.present (h : MachineInv s) (v : Word) : MachineInv (present v s) := by
  obtain ⟨hdrop, -⟩ | ⟨hbusy, herr, ⟨r, hdec, hpres⟩ | ⟨i, hdec, hpres⟩⟩ := present_cases v s
  · exact hdrop ▸ h.drop
  all_goals
    rw [hpres]
    have hidle : s.engine = .idle := by simpa [hbusy] using (busy_iff s).not
    have hclean := writeClean_of_idle h hidle
  · exact ⟨⟨fun _ => ErrorKind.code_range _, by simp⟩, by simp, h.validity, h.tableTail, .inr hclean, h.queue,
      engineOk_of_idle rfl⟩
  · refine ⟨h.errorLatch, by simp [accept], h.validity, h.tableTail, .inr hclean, h.queue, ?_⟩
    intro w p hrun
    obtain ⟨rfl, rfl⟩ : v = w ∧ .start = p := by simpa using hrun
    refine ⟨i, hdec, rfl, rfl, fun hs => ?_, trivial⟩
    obtain herr | rfl := herr
    · exact absurd (herr.symm.trans hs) (by simp)
    · simpa using hdec.symm

theorem MachineInv.writeReg (h : MachineInv s) (r : Reg) (v : Word) : MachineInv (writeReg r v s) := by
  have hidle : ¬ s.busy = true → s.engine = .idle := fun hb => by simpa using (busy_iff s).not.mp hb
  cases r with
  | ctrl =>
    simp only [Machine.writeReg]
    split
    · exact h.softReset
    · exact h
  | status => exact h.writeStatus v
  | irqEn => exact ⟨h.errorLatch, h.doneErr, h.validity, h.tableTail, h.writeCursor, h.queue, h.engine⟩
  | cmd => exact h.present v
  | weight x =>
    simp only [Machine.writeReg]
    split
    · exact h.drop
    · exact ⟨h.errorLatch, h.doneErr, h.validity, h.tableTail, h.writeCursor, h.queue, h.engine⟩
  | node i =>
    simp only [Machine.writeReg]
    split
    · exact h.drop
    · rename_i hb
      exact h.writeNode (hidle hb) i v
  | _ => exact h

end Moves

/-- Settles O47. -/
theorem invariantHoldsAtReset : Obligations.InvariantHoldsAtReset := machineInv_reset

/-- Settles O48: a step is an atomic step of the running command, a register write, or outside HCORE (`step_cases`). -/
theorem everyStepKeepsTheInvariant : Obligations.EveryStepKeepsTheInvariant := by
  intro s t h hstep
  obtain ⟨i, p, s', ⟨-, w, hrun, hdec⟩, henv, hexec⟩ | ⟨r, v, s', -, henv, rfl⟩ | henv := step_cases hstep
  · have hrun' : Runs i p s' := by
      rw [Runs, henv.1, ← eq_encode_of_decode hdec]
      exact hrun
    exact exec_inv (h.of_onlyEnvironmentChanged henv) hrun' hexec
  · exact (h.of_onlyEnvironmentChanged henv).writeReg r v
  · exact h.of_onlyEnvironmentChanged henv

end Sys2Proof.Machine

namespace Sys2Proof.Machine

/-! ## The fields of the words the host reads -/

/-- Settles O11: STATUS is a concatenation of its fields, each read back at its place. -/
theorem statusFields : Obligations.StatusFields := by
  intro s
  have hbits : (statusWord s).getLsbD 0 = s.busy ∧ (statusWord s).getLsbD 1 = s.done ∧
      (statusWord s).getLsbD 2 = s.err ∧ (statusWord s).getLsbD 3 = s.dropped ∧
      (statusWord s).getLsbD 4 = s.treeValid ∧ (statusWord s).getLsbD 5 = s.tableValid := by
    simp only [statusWord, BitVec.getLsbD_append]
    simp
  have hranges : (statusWord s).extractLsb' 6 2 = 0#2 ∧ (statusWord s).extractLsb' 8 4 = s.op ∧
      (statusWord s).extractLsb' 12 20 = 0#20 := by
    simp only [statusWord, BitVec.extractLsb'_append_eq_ite]
    simp
  have hbusy : s.busy = true ↔ ∃ w p, s.engine = .run w p := by
    cases h : s.engine <;> simp [State.busy, h]
  obtain ⟨h0, h1, h2, h3, h4, h5⟩ := hbits
  exact ⟨h0, h1, h2, h3, h4, h5, hranges.1, hranges.2.1, hranges.2.2, hbusy⟩

/-- R31: reading a stored word back clears its reserved bits, the ones outside the mask. -/
theorem toWord_ofWord (v : Word) : (Node.ofWord v).toWord = v &&& 0x83FFFFFF#32 := by
  have hmask : ∀ j < 32, (0x83FFFFFF#32).getLsbD j = decide (j < 26 ∨ j = 31) := by decide
  refine BitVec.eq_of_getLsbD_eq fun j hj => ?_
  rw [BitVec.getLsbD_and, hmask j hj]
  simp only [Node.toWord, Node.ofWord, BitVec.getLsbD_append]
  grind

theorem ofWord_toWord (n : Node) : Node.ofWord n.toWord = n := by
  simp only [Node.ofWord, Node.toWord, BitVec.extractLsb'_append_eq_ite, BitVec.getLsbD_append]
  simp

/-- R118: NIL children are all ones, below the symbol. -/
theorem toWord_leaf (x : Byte) : (Node.leaf x).toWord = (x.setWidth 32 <<< 18) ||| 0x0003FFFF#32 := by
  have hnil : ∀ j < 9, Config.nil.getLsbD j = true := by decide
  have hones : ∀ j < 32, (0x0003FFFF#32).getLsbD j = decide (j < 18) := by decide
  refine BitVec.eq_of_getLsbD_eq fun j hj => ?_
  rw [BitVec.getLsbD_or, hones j hj]
  simp only [Node.toWord, Node.leaf, BitVec.getLsbD_append]
  simp
  grind

theorem toWord_inner (l r : NodeIx) :
    (Node.inner l r).toWord = 0x80000000#32 ||| (r.setWidth 32 <<< 9) ||| l.setWidth 32 := by
  have htop : ∀ j < 32, (0x80000000#32).getLsbD j = decide (j = 31) := by decide
  refine BitVec.eq_of_getLsbD_eq fun j hj => ?_
  rw [BitVec.getLsbD_or, BitVec.getLsbD_or, htop j hj]
  simp only [Node.toWord, Node.inner, BitVec.getLsbD_append]
  simp
  grind

/-- Settles O12. -/
theorem nodeWordFields : Obligations.NodeWordFields :=
  ⟨fun v => ⟨rfl, rfl, rfl, rfl, toWord_ofWord v⟩, ofWord_toWord, toWord_leaf, toWord_inner⟩

/-- Settles O13: both sides are bit `255 - (32 * k + t)` of the stored code, counted from the least significant end. -/
theorem codeWordBitOrder : Obligations.CodeWordBitOrder := by
  intro c k t ht
  have hk := k.isLt
  have hword : (codeWord c k).getLsbD (31 - t) = c.getLsbD (224 - 32 * k.val + (31 - t)) := by
    rw [codeWord, BitVec.getLsbD_extractLsb', decide_eq_true (by omega), Bool.true_and]
  have hcode : codeBit c (32 * k.val + t) = c.getLsbD (256 - 1 - (32 * k.val + t)) := by
    rw [codeBit, BitVec.getMsbD, decide_eq_true (by omega), Bool.true_and]
  rw [hword, hcode]
  congr 1
  omega

/-- R29, R63: the write is well formed, and `writeReg` ignores it. -/
theorem hostAccess_write_cursor (s : State) (v : Word) : hostAccess (writeRegAccess .cursor v) s = .next s := by
  have hreg : regOf (offsetOf .cursor) = some .cursor := rfl
  obtain ⟨hbad, -⟩ | ⟨-, hkind, -⟩ | ⟨-, v', -, hwrite⟩ := hostAccess_cases (writeRegAccess .cursor v) s
  · have hwf : (writeRegAccess .cursor v).wf = true := by
      simp [HostAccess.wf, HostAccess.widthOk, HostAccess.aligned, writeRegAccess, offsetOf]
    simp [hwf] at hbad
  · simp [writeRegAccess] at hkind
  · simpa [writeRegAccess, hostWrite, hreg, writeReg] using hwrite

/-- Settles O14. -/
theorem cursorView : Obligations.CursorView := by
  refine ⟨fun s v => ?_, rfl⟩
  have hfields : (cursorWord s).extractLsb' 0 8 = s.wbuf ∧ (cursorWord s).extractLsb' 8 3 = s.wcnt ∧
      (cursorWord s).extractLsb' 11 5 = 0#5 ∧ (cursorWord s).extractLsb' 16 8 = s.rbuf ∧
      (cursorWord s).extractLsb' 24 3 = s.rcnt ∧ (cursorWord s).extractLsb' 27 5 = 0#5 := by
    simp only [cursorWord, BitVec.extractLsb'_append_eq_ite]
    simp
  obtain ⟨hwbuf, hwcnt, hmid, hrbuf, hrcnt, htop⟩ := hfields
  exact ⟨hwbuf, hwcnt, hmid, hrbuf, hrcnt, htop, hostAccess_write_cursor s v⟩

/-- Settles O15. -/
theorem interruptLevel : Obligations.InterruptLevel := by
  intro s
  simp only [irq, doneIe, errIe, Bool.or_eq_true, Bool.and_eq_true]

/-- R120: T1 is the first condition asked of the first node. -/
theorem treeCheck_of_root_leaf {a : Vector Node 511} (h : a[0].internal = false) :
    treeCheck a = some (0, .rootLeaf) :=
  (treeCheck_some ..).mpr ⟨by omega, by simp [nodeCond, h], fun j hj => absurd hj (Nat.not_lt_zero j)⟩

/-- Settles O16. -/
theorem resetValues : Obligations.ResetValues := by
  have hweight : ∀ x, regValue (.weight x) State.reset = 0#32 := by simp [regValue, State.reset]
  have hnode : ∀ i, regValue (.node i) State.reset = 0#32 := fun i => by
    simp [regValue, State.reset]
    rfl
  have hlo : ∀ i, regValue (.nodeWLo i) State.reset = 0#32 := by simp [regValue, State.reset, weightLo]
  have hhi : ∀ i, regValue (.nodeWHi i) State.reset = 0#32 := by simp [regValue, State.reset, weightHi]
  have hlen : ∀ x, regValue (.codeLen x) State.reset = 0#32 := by simp [regValue, State.reset]
  have hcode : ∀ x k, regValue (.codeBits x k) State.reset = 0#32 := by
    simp [regValue, State.reset, codeAt, codeWord]
  have htree : treeCheck State.reset.node = some (0, .rootLeaf) :=
    treeCheck_of_root_leaf (by simp [State.reset, Node.zero])
  exact ⟨rfl, rfl, rfl, rfl, rfl, rfl, rfl, rfl, hweight, hnode, hlo, hhi, hlen, hcode, rfl, rfl, rfl, rfl, rfl, rfl,
    rfl, htree⟩

end Sys2Proof.Machine

namespace Sys2Proof.Machine

/-! ## What each command may write (R43, R163, R242) -/

/-- The state `s` with the fields that an atomic step of command `i` may write taken from `t`. -/
def writtenBy (i : Instr) (s t : State) : State :=
  match i with
  | .nop => { s with done := t.done, engine := t.engine }
  | .build => { s with
      done := t.done, engine := t.engine, treeValid := t.treeValid, tableValid := t.tableValid
      node := t.node, nodew := t.nodew, orph := t.orph, draws := t.draws }
  | .check => { s with
      done := t.done, engine := t.engine, treeValid := t.treeValid
      err := t.err, errCode := t.errCode, errInfo := t.errInfo }
  | .extract => { s with
      done := t.done, engine := t.engine, treeValid := t.treeValid, tableValid := t.tableValid
      err := t.err, errCode := t.errCode, errInfo := t.errInfo
      len := t.len, code := t.code, depth := t.depth, acc := t.acc, draws := t.draws }
  | .encode => { s with
      done := t.done, engine := t.engine, err := t.err, errCode := t.errCode, errInfo := t.errInfo
      wbuf := t.wbuf, wcnt := t.wcnt, outq := t.outq, source := t.source }
  | .decode => { s with
      done := t.done, engine := t.engine, treeValid := t.treeValid
      err := t.err, errCode := t.errCode, errInfo := t.errInfo
      rbuf := t.rbuf, rcnt := t.rcnt, dstate := t.dstate, outq := t.outq, source := t.source }
  | .wbit _ => { s with done := t.done, engine := t.engine, wbuf := t.wbuf, wcnt := t.wcnt, outq := t.outq }
  | .wclose => { s with
      done := t.done, engine := t.engine, err := t.err, errCode := t.errCode, errInfo := t.errInfo, outq := t.outq }
  | .rbit => { s with
      done := t.done, engine := t.engine, err := t.err, errCode := t.errCode, errInfo := t.errInfo
      result := t.result, rbuf := t.rbuf, rcnt := t.rcnt, source := t.source }
  | .clear => { s with
      done := t.done, engine := t.engine, err := t.err, errCode := t.errCode, errInfo := t.errInfo
      result := t.result, wbuf := t.wbuf, wcnt := t.wcnt, rbuf := t.rbuf, rcnt := t.rcnt, dstate := t.dstate }

/-- The step of `i` wrote its own fields only, and did not clear DONE. -/
def WritesOnlyItsOwn (i : Instr) (s t : State) : Prop := t = writtenBy i s t ∧ (s.done = true → t.done = true)

section Frames
variable {s t : State}

/-- ENCODE's loops over bits write the write cursor and move the engine on. -/
def WritesCursorOnly (s t : State) : Prop :=
  ∃ wbuf wcnt engine, t = { s with wbuf := wbuf, wcnt := wcnt, engine := engine }

theorem WritesCursorOnly.putBit (i : Instr) (k : AfterOut) (b : Bool) (go : State → State)
    (hgo : WritesCursorOnly (shiftIn b s) (go (shiftIn b s))) : WritesCursorOnly s (putBit i k b go s) := by
  obtain ⟨-, hput⟩ | ⟨-, hput⟩ := putBit_cases i k b go s
  · exact hput ▸ ⟨_, _, _, rfl⟩
  · obtain ⟨wbuf, wcnt, engine, hgo⟩ := hgo
    exact ⟨wbuf, wcnt, engine, hput.trans hgo⟩

theorem writesCursorOnly_emitCode (d : Byte) (n j : Nat) (s : State) : WritesCursorOnly s (emitCode d n j s) := by
  induction n generalizing j s with
  | zero => exact ⟨_, _, _, rfl⟩
  | succ n ih => exact .putBit _ _ _ _ (ih (j + 1) _)

theorem writesCursorOnly_emitPad (x : Byte) (n j : Nat) (s : State) : WritesCursorOnly s (emitPad x n j s) := by
  induction n generalizing j s with
  | zero => exact ⟨_, _, _, rfl⟩
  | succ n ih => exact .putBit _ _ _ _ (ih (j + 1) _)

theorem writesCursorOnly_pad (s : State) : WritesCursorOnly s (pad s) := by
  unfold pad
  split
  · exact ⟨_, _, _, rfl⟩
  · split
    · exact ⟨_, _, _, rfl⟩
    · exact writesCursorOnly_emitPad ..

theorem writesCursorOnly_encodeToken {tok : InToken} (h : encodeToken tok s = .next t) : WritesCursorOnly s t := by
  obtain ⟨d, rfl⟩ | rfl | ⟨info, rfl⟩ := encodeToken_next_cases h
  · exact writesCursorOnly_emitCode ..
  · exact writesCursorOnly_pad s
  · exact ⟨_, _, _, rfl⟩

/-- DECODE's loop over bits writes RCNT and DSTATE and moves the engine on. -/
theorem decodeBits_frame {n : Nat} (h : decodeBits n s = .next t) :
    ∃ rcnt dstate engine, t = { s with rcnt := rcnt, dstate := dstate, engine := engine } := by
  induction n generalizing s with
  | zero =>
    obtain rfl := Host.Outcome.next.inj h
    exact ⟨_, _, _, rfl⟩
  | succ n ih =>
    rw [decodeBits] at h
    split at h
    · simp at h
    · rename_i c m hwalk
      split at h
      · exact ih (s := { setRcnt n s with dstate := c }) h
      · obtain rfl := Host.Outcome.next.inj h
        exact ⟨_, _, _, rfl⟩

theorem decodeToken_frame {tok : InToken} (h : decodeToken tok s = .next t) :
    ∃ rbuf rcnt dstate engine, t = { s with rbuf := rbuf, rcnt := rcnt, dstate := dstate, engine := engine } := by
  obtain ⟨d, hbits⟩ | rfl | ⟨info, rfl⟩ := decodeToken_next_cases h
  · exact ⟨d, decodeBits_frame (s := loadByte d s) hbits⟩
  · exact ⟨_, _, _, _, rfl⟩
  · exact ⟨_, _, _, _, rfl⟩

theorem writesOnlyItsOwn_refl (i : Instr) (s : State) : WritesOnlyItsOwn i s s := by
  cases i <;> exact ⟨rfl, id⟩

theorem execBuild_writes (h : execBuild s = .next t) : WritesOnlyItsOwn .build s t := by
  unfold execBuild at h
  generalize buildTree s.weight s.builder = b at h
  obtain rfl := Host.Outcome.next.inj h
  exact ⟨rfl, fun _ => rfl⟩

theorem execCheck_writes (h : execCheck s = .next t) : WritesOnlyItsOwn .check s t := by
  obtain ⟨n, c, -, rfl⟩ | ⟨-, rfl⟩ := execCheck_next_cases h
  · exact ⟨rfl, id⟩
  · exact ⟨rfl, fun _ => rfl⟩

theorem execExtract_writes (h : execExtract s = .next t) : WritesOnlyItsOwn .extract s t := by
  obtain ⟨n, c, -, rfl⟩ | ⟨-, ⟨i, -, rfl⟩ | ⟨x, -, rfl⟩⟩ := execExtract_next_cases h
  · exact ⟨rfl, id⟩
  · exact ⟨rfl, id⟩
  · exact ⟨rfl, fun _ => rfl⟩

theorem execEncode_writes (h : execEncode s = .next t) : WritesOnlyItsOwn .encode s t := by
  obtain rfl | ⟨-, -, rfl⟩ | ⟨-, rfl⟩ | ⟨-, tok, rest, htok⟩ | ⟨tok, k, s', -, -, rfl, hout⟩ :=
    execEncode_next_cases h
  · exact writesOnlyItsOwn_refl ..
  · exact ⟨rfl, id⟩
  · exact ⟨rfl, id⟩
  · obtain ⟨wbuf, wcnt, engine, rfl⟩ := writesCursorOnly_encodeToken htok
    exact ⟨rfl, id⟩
  · obtain ⟨d, j, -, ht⟩ | ⟨-, rfl⟩ | ⟨-, rfl⟩ | ⟨e, info, -, rfl⟩ := hout
    · obtain ⟨wbuf, wcnt, engine, hemit⟩ := writesCursorOnly_emitCode d (lenAt s.len d - (j + 1)) (j + 1)
        (clearWrite { s with outq := s.outq ++ [tok] })
      obtain rfl := ht.trans hemit
      exact ⟨rfl, id⟩
    · exact ⟨rfl, id⟩
    · exact ⟨rfl, fun _ => rfl⟩
    · exact ⟨rfl, id⟩

theorem execDecode_writes (h : execDecode s = .next t) : WritesOnlyItsOwn .decode s t := by
  obtain rfl | ⟨-, hstart⟩ | ⟨-, tok, rest, htok⟩ | ⟨tok, k, s', -, -, rfl, hout⟩ := execDecode_next_cases h
  · exact writesOnlyItsOwn_refl ..
  · obtain ⟨n, c, -, rfl⟩ | ⟨-, hbits⟩ := checkedTree_next_cases hstart
    · exact ⟨rfl, id⟩
    · obtain ⟨rcnt, dstate, engine, rfl⟩ := decodeBits_frame hbits
      exact ⟨rfl, id⟩
  · obtain ⟨rbuf, rcnt, dstate, engine, rfl⟩ := decodeToken_frame htok
    exact ⟨rfl, id⟩
  · obtain ⟨-, hbits⟩ | ⟨-, rfl⟩ | ⟨e, info, -, rfl⟩ := hout
    · obtain ⟨rcnt, dstate, engine, rfl⟩ := decodeBits_frame hbits
      exact ⟨rfl, id⟩
    · exact ⟨rfl, fun _ => rfl⟩
    · exact ⟨rfl, id⟩

theorem execWbit_writes {b : Bool} (h : execWbit b s = .next t) : WritesOnlyItsOwn (.wbit b) s t := by
  obtain rfl | ⟨-, rfl⟩ | ⟨tok, -, -, rfl⟩ := execWbit_next_cases h
  · exact writesOnlyItsOwn_refl ..
  · obtain ⟨-, hput⟩ | ⟨-, hput⟩ := putBit_cases (.wbit b) .bitWritten b complete s
    · exact hput ▸ ⟨rfl, id⟩
    · exact hput ▸ ⟨rfl, fun _ => rfl⟩
  · exact ⟨rfl, fun _ => rfl⟩

theorem execWclose_writes (h : execWclose s = .next t) : WritesOnlyItsOwn .wclose s t := by
  obtain rfl | ⟨-, -, rfl⟩ | ⟨-, -, rfl⟩ | ⟨tok, -, -, rfl⟩ | ⟨tok, e, info, -, -, rfl⟩ := execWclose_next_cases h
  · exact writesOnlyItsOwn_refl ..
  · exact ⟨rfl, id⟩
  · exact ⟨rfl, id⟩
  · exact ⟨rfl, fun _ => rfl⟩
  · exact ⟨rfl, id⟩

theorem execRbit_writes (h : execRbit s = .next t) : WritesOnlyItsOwn .rbit s t := by
  obtain rfl | ⟨-, -, rfl⟩ | ⟨-, n, rfl⟩ | ⟨-, tok, rest, hread⟩ := execRbit_next_cases h
  · exact writesOnlyItsOwn_refl ..
  · exact ⟨rfl, id⟩
  · exact ⟨rfl, fun _ => rfl⟩
  · obtain ⟨d, rfl⟩ | rfl | ⟨info, rfl⟩ := readToken_next_cases hread
    · exact ⟨rfl, fun _ => rfl⟩
    · exact ⟨rfl, fun _ => rfl⟩
    · exact ⟨rfl, id⟩

theorem exec_writes {i : Instr} (h : exec i s = .next t) : WritesOnlyItsOwn i s t := by
  cases i with
  | nop =>
    obtain rfl := Host.Outcome.next.inj h
    exact ⟨rfl, fun _ => rfl⟩
  | build => exact execBuild_writes h
  | check => exact execCheck_writes h
  | extract => exact execExtract_writes h
  | encode => exact execEncode_writes h
  | decode => exact execDecode_writes h
  | wbit b => exact execWbit_writes h
  | wclose => exact execWclose_writes h
  | rbit => exact execRbit_writes h
  | clear =>
    obtain rfl := Host.Outcome.next.inj h
    exact ⟨rfl, fun _ => rfl⟩

end Frames

/-! ## What a host write may do (R64, R220) -/

/-- What a write of `v` to register `r` that resets nothing makes of `s`. -/
inductive RegWrite (s : State) : Reg → Word → State → Prop
  | ignored (r : Reg) (v : Word) : RegWrite s r v s
  | status (v : Word) : RegWrite s .status v (writeStatus v s)
  | irqEn (v : Word) : RegWrite s .irqEn v { s with irqEn := v.extractLsb' 0 2 }
  | commandDropped (v : Word) : RegWrite s .cmd v (drop s)
  | commandIllegal (v : Word) (hidle : s.busy = false) (hillegal : illegal v = true) :
    RegWrite s .cmd v (latch .illegalCommand v { s with done := false })
  | commandAccepted (v : Word) (hidle : s.busy = false) : RegWrite s .cmd v (accept v s)
  | weight (x : Byte) (v : Word) (hidle : s.busy = false) : RegWrite s (.weight x) v (writeWeight x v s)
  | weightDropped (x : Byte) (v : Word) (hbusy : s.busy = true) : RegWrite s (.weight x) v (drop s)
  | node (i : Fin 511) (v : Word) (hidle : s.busy = false) : RegWrite s (.node i) v (writeNode i v s)
  | nodeDropped (i : Fin 511) (v : Word) (hbusy : s.busy = true) : RegWrite s (.node i) v (drop s)

theorem plainRow_eq_error {v : Word} {i : Instr} {e : IllegalWord} (h : plainRow v i = .error e) : bOf v = true := by
  cases hb : bOf v <;> simp_all [plainRow]

/-- R93: only illegal words are not decoded. -/
theorem illegal_of_decode_error {v : Word} {e : IllegalWord} (h : decode v = .error e) : illegal v = true := by
  unfold decode at h
  split at h
  · simp [illegal, ‹rsvOf v ≠ 0#23›]
  · split at h
    case h_7 => simp at h
    case h_11 =>
      have hopc : 0x0A#8 ≤ opcOf v := by
        simp only [imp_false] at *
        rw [BitVec.le_def, BitVec.toNat_ofNat]
        omega
      simp [illegal, hopc]
    all_goals
      rename_i hop
      have hb := plainRow_eq_error h
      have hnot6 : opcOf v ≠ 0x06#8 := fun h6 => by simp [h6] at hop
      simp [illegal, hb, hnot6]

theorem regWrite_writeReg (r : Reg) (v : Word) (s : State) (hreset : ¬ (r = .ctrl ∧ v.getLsbD 0 = true)) :
    RegWrite s r v (writeReg r v s) := by
  cases r with
  | ctrl =>
    rw [writeReg, if_neg (by simpa using hreset)]
    exact .ignored ..
  | status => exact .status v
  | irqEn => exact .irqEn v
  | cmd =>
    rw [writeReg]
    obtain ⟨hdrop, -⟩ | ⟨hidle, -, ⟨e, hdec, hpres⟩ | ⟨i, hdec, hpres⟩⟩ := present_cases v s
    · exact hdrop ▸ .commandDropped v
    · exact hpres ▸ .commandIllegal v hidle (illegal_of_decode_error hdec)
    · exact hpres ▸ .commandAccepted v hidle
  | weight x =>
    rw [writeReg]
    split
    · exact .weightDropped x v ‹_›
    · exact .weight x v (by simpa using ‹¬ s.busy = true›)
  | node i =>
    rw [writeReg]
    split
    · exact .nodeDropped i v ‹_›
    · exact .node i v (by simpa using ‹¬ s.busy = true›)
  | _ => exact .ignored ..

/-! ## A field that a step changes -/

section Fields
variable {s t : State} {α : Type}

/-- A step that changes a field of HCORE is an atomic step of a command that changes it, a soft reset, or a register
write that changes it. -/
theorem step_changes_cases (f : State → α) (h : step s = .next t) (hne : f t ≠ f s)
    (hf : ∀ s t, OnlyEnvironmentChanged s t → f t = f s := by exact fun _ _ henv => by rw [henv.1] <;> rfl) :
    SoftResets s ∨
      (∃ i p s', EngineMoves s i p ∧ WritesOnlyItsOwn i s' t ∧ f s' = f s ∧ f t ≠ f s') ∨
      ∃ r v s', HostWrites s r v ∧ s'.busy = s.busy ∧ RegWrite s' r v t ∧ f s' = f s ∧ f t ≠ f s' := by
  obtain ⟨i, p, s', hmoves, henv, hexec⟩ | ⟨r, v, s', hwrites, henv, rfl⟩ | henv := step_cases h
  · exact .inr (.inl ⟨i, p, s', hmoves, exec_writes hexec, hf s s' henv, by rwa [hf s s' henv]⟩)
  · by_cases hreset : r = .ctrl ∧ v.getLsbD 0 = true
    · obtain ⟨rfl, hbit⟩ := hreset
      exact .inl ⟨v, hwrites, hbit⟩
    · have hbusy : s'.busy = s.busy := by
        rw [henv.1]
        rfl
      exact .inr (.inr ⟨r, v, s', hwrites, hbusy, regWrite_writeReg r v s' hreset, hf s s' henv,
        by rwa [hf s s' henv]⟩)
  · exact absurd (hf s t henv) hne

end Fields

/-- Settles O51: of all commands only the four may write a validity flag, and of all register writes only NODE's does. -/
theorem validityFlagsChangeOnlyOnTheirEvents : Obligations.ValidityFlagsChangeOnlyOnTheirEvents := by
  intro s t h hne
  have hflags : (t.treeValid, t.tableValid) ≠ (s.treeValid, s.tableValid) := mt Prod.mk.inj (not_and_or.mpr hne)
  obtain hreset | ⟨i, p, s', hmoves, ⟨hown, -⟩, -, hne⟩ | ⟨r, v, s', hwrites, hbusy, hw, -, hne⟩ :=
    step_changes_cases (fun s => (s.treeValid, s.tableValid)) h hflags
  · exact .inl hreset
  · refine .inr (.inr ⟨i, p, hmoves, ?_⟩)
    cases i with
    | build => exact .inl rfl
    | check => exact .inr (.inl rfl)
    | extract => exact .inr (.inr (.inl rfl))
    | decode => exact .inr (.inr (.inr rfl))
    | _ => exact absurd (congrArg (fun s : State => (s.treeValid, s.tableValid)) hown) hne
  · cases hw with
    | node i v hidle => exact .inr (.inl ⟨hbusy ▸ hidle, i, v, hwrites⟩)
    | _ => exact absurd rfl hne

end Sys2Proof.Machine

namespace Sys2Proof.Machine

/-! ## Who writes each field (R22 to R40) -/

section Writers
variable {s t : State} {α : Type}

/-- A field that no register write touches is changed by commands alone. -/
theorem step_changes_engine_cases (f : State → α) (h : step s = .next t) (hreset : ¬ SoftResets s)
    (hne : f t ≠ f s)
    (hf : ∀ s t, OnlyEnvironmentChanged s t → f t = f s := by exact fun _ _ henv => by rw [henv.1] <;> rfl)
    (hw : ∀ s r v t, RegWrite s r v t → f t = f s := by exact fun _ _ _ _ hw => by cases hw <;> rfl) :
    ∃ i p s', EngineMoves s i p ∧ t = writtenBy i s' t ∧ f t ≠ f s' := by
  obtain hr | ⟨i, p, s', hmoves, ⟨hown, -⟩, -, hne⟩ | ⟨r, v, s', -, -, hwrite, -, hne⟩ :=
    step_changes_cases f h hne hf
  · exact absurd hr hreset
  · exact ⟨i, p, s', hmoves, hown, hne⟩
  · exact absurd (hw s' r v t hwrite) hne

/-! ### STATUS (R23) -/

theorem step_sets_done (h : step s = .next t) (hreset : ¬ SoftResets s) (hs : s.done = false) (ht : t.done = true) :
    ∃ i p, EngineMoves s i p := by
  obtain hr | ⟨i, p, s', hmoves, -⟩ | ⟨r, v, s', -, -, hwrite, hsame, hne⟩ :=
    step_changes_cases State.done h (by simp [hs, ht])
  · exact absurd hr hreset
  · exact ⟨i, p, hmoves⟩
  · have hs' : s'.done = false := hsame.trans hs
    cases hwrite with
    | status | commandIllegal | commandAccepted => simp [writeStatus, accept, hs'] at ht
    | _ => exact absurd rfl hne

theorem step_clears_done (h : step s = .next t) (hreset : ¬ SoftResets s) (hs : s.done = true) (ht : t.done = false) :
    (∃ v, HostWrites s .status v ∧ v.getLsbD 1 = true) ∨ (s.busy = false ∧ ∃ v, HostWrites s .cmd v) := by
  obtain hr | ⟨i, p, s', -, ⟨-, hkeeps⟩, hsame, -⟩ | ⟨r, v, s', hwrites, hbusy, hwrite, hsame, hne⟩ :=
    step_changes_cases State.done h (by simp [hs, ht])
  · exact absurd hr hreset
  · simp [hkeeps (hsame.trans hs)] at ht
  · cases hwrite with
    | status v => exact .inl ⟨v, hwrites, by simpa [writeStatus, hsame.trans hs] using ht⟩
    | commandIllegal v hidle => exact .inr ⟨hbusy ▸ hidle, v, hwrites⟩
    | commandAccepted v hidle => exact .inr ⟨hbusy ▸ hidle, v, hwrites⟩
    | _ => exact absurd rfl hne

theorem step_sets_dropped (h : step s = .next t) (hreset : ¬ SoftResets s) (hs : s.dropped = false)
    (ht : t.dropped = true) :
    (∃ v, HostWrites s .cmd v) ∨
      (s.busy = true ∧ ((∃ x v, HostWrites s (.weight x) v) ∨ ∃ i v, HostWrites s (.node i) v)) := by
  obtain hr | ⟨i, p, s', -, ⟨hown, -⟩, -, hne⟩ | ⟨r, v, s', hwrites, hbusy, hwrite, hsame, hne⟩ :=
    step_changes_cases State.dropped h (by simp [hs, ht])
  · exact absurd hr hreset
  · cases i <;> exact absurd (congrArg State.dropped hown) hne
  · cases hwrite with
    | status v => simp [writeStatus, hsame.trans hs] at ht
    | commandDropped v => exact .inl ⟨v, hwrites⟩
    | weightDropped x v hb => exact .inr ⟨hbusy ▸ hb, .inl ⟨x, v, hwrites⟩⟩
    | nodeDropped i v hb => exact .inr ⟨hbusy ▸ hb, .inr ⟨i, v, hwrites⟩⟩
    | _ => exact absurd rfl hne

theorem step_clears_dropped (h : step s = .next t) (hreset : ¬ SoftResets s) (hs : s.dropped = true)
    (ht : t.dropped = false) : ∃ v, HostWrites s .status v ∧ v.getLsbD 3 = true := by
  obtain hr | ⟨i, p, s', -, ⟨hown, -⟩, -, hne⟩ | ⟨r, v, s', hwrites, -, hwrite, hsame, hne⟩ :=
    step_changes_cases State.dropped h (by simp [hs, ht])
  · exact absurd hr hreset
  · cases i <;> exact absurd (congrArg State.dropped hown) hne
  · cases hwrite with
    | status v => exact ⟨v, hwrites, by simpa [writeStatus, hsame.trans hs] using ht⟩
    | commandDropped | weightDropped | nodeDropped => simp [drop] at ht
    | _ => exact absurd rfl hne

theorem step_changes_op (h : step s = .next t) (hreset : ¬ SoftResets s) (hne : t.op ≠ s.op) :
    s.busy = false ∧ ∃ v, HostWrites s .cmd v := by
  obtain hr | ⟨i, p, s', -, ⟨hown, -⟩, -, hne⟩ | ⟨r, v, s', hwrites, hbusy, hwrite, -, hne⟩ :=
    step_changes_cases State.op h hne
  · exact absurd hr hreset
  · cases i <;> exact absurd (congrArg State.op hown) hne
  · cases hwrite with
    | commandAccepted v hidle => exact ⟨hbusy ▸ hidle, v, hwrites⟩
    | _ => exact absurd rfl hne

/-! ### ERR, ERRINFO, RESULT and IRQ_EN (R25 to R28) -/

/-- ERR, its code and ERRINFO. -/
def State.latchOf (s : State) : Bool × BitVec 4 × Word := (s.err, s.errCode, s.errInfo)

theorem step_changes_error (h : step s = .next t) (hreset : ¬ SoftResets s)
    (hne : t.err ≠ s.err ∨ t.errCode ≠ s.errCode ∨ t.errInfo ≠ s.errInfo) :
    (∃ i p, EngineMoves s i p ∧ (i = .check ∨ i = .extract ∨ i = .encode ∨ i = .decode ∨ i = .wclose ∨ i = .rbit ∨
      i = .clear)) ∨
      (s.busy = false ∧ ∃ v, HostWrites s .cmd v ∧ illegal v = true) := by
  have hne : t.latchOf ≠ s.latchOf := by
    simp only [State.latchOf, ne_eq, Prod.mk.injEq]
    tauto
  obtain hr | ⟨i, p, s', hmoves, ⟨hown, -⟩, -, hne⟩ | ⟨r, v, s', hwrites, hbusy, hwrite, -, hne⟩ :=
    step_changes_cases State.latchOf h hne
  · exact absurd hr hreset
  · refine .inl ⟨i, p, hmoves, ?_⟩
    cases i with
    | nop | build | wbit => exact absurd (congrArg State.latchOf hown) hne
    | _ => simp
  · cases hwrite with
    | commandIllegal v hidle hillegal => exact .inr ⟨hbusy ▸ hidle, v, hwrites, hillegal⟩
    | _ => exact absurd rfl hne

theorem step_changes_result (h : step s = .next t) (hreset : ¬ SoftResets s) (hne : t.result ≠ s.result) :
    ∃ p, EngineMoves s .rbit p ∨ EngineMoves s .clear p := by
  obtain ⟨i, p, s', hmoves, hown, hne⟩ := step_changes_engine_cases State.result h hreset hne
  cases i with
  | rbit => exact ⟨p, .inl hmoves⟩
  | clear => exact ⟨p, .inr hmoves⟩
  | _ => exact absurd (congrArg State.result hown) hne

theorem step_changes_irqEn (h : step s = .next t) (hreset : ¬ SoftResets s) (hne : t.irqEn ≠ s.irqEn) :
    ∃ v, HostWrites s .irqEn v := by
  obtain hr | ⟨i, p, s', -, ⟨hown, -⟩, -, hne⟩ | ⟨r, v, s', hwrites, -, hwrite, -, hne⟩ :=
    step_changes_cases State.irqEn h hne
  · exact absurd hr hreset
  · cases i <;> exact absurd (congrArg State.irqEn hown) hne
  · cases hwrite with
    | irqEn v => exact ⟨v, hwrites⟩
    | _ => exact absurd rfl hne

/-! ### The cursors (R36, R163) -/

theorem step_changes_writeCursor (h : step s = .next t) (hreset : ¬ SoftResets s)
    (hne : t.wbuf ≠ s.wbuf ∨ t.wcnt ≠ s.wcnt) :
    ∃ i p, EngineMoves s i p ∧ ((∃ b, i = .wbit b) ∨ i = .encode ∨ i = .clear) := by
  obtain ⟨i, p, s', hmoves, hown, hne⟩ := step_changes_engine_cases (fun s => (s.wbuf, s.wcnt))
    h hreset (mt Prod.mk.inj (not_and_or.mpr hne))
  refine ⟨i, p, hmoves, ?_⟩
  cases i with
  | wbit b => exact .inl ⟨b, rfl⟩
  | encode => exact .inr (.inl rfl)
  | clear => exact .inr (.inr rfl)
  | _ => exact absurd (congrArg (fun s : State => (s.wbuf, s.wcnt)) hown) hne

theorem step_changes_readCursor (h : step s = .next t) (hreset : ¬ SoftResets s)
    (hne : t.rbuf ≠ s.rbuf ∨ t.rcnt ≠ s.rcnt) :
    ∃ i p, EngineMoves s i p ∧ (i = .rbit ∨ i = .decode ∨ i = .clear) := by
  obtain ⟨i, p, s', hmoves, hown, hne⟩ := step_changes_engine_cases (fun s => (s.rbuf, s.rcnt))
    h hreset (mt Prod.mk.inj (not_and_or.mpr hne))
  refine ⟨i, p, hmoves, ?_⟩
  cases i with
  | rbit => exact .inl rfl
  | decode => exact .inr (.inl rfl)
  | clear => exact .inr (.inr rfl)
  | _ => exact absurd (congrArg (fun s : State => (s.rbuf, s.rcnt)) hown) hne

/-! ### The arrays (R30 to R34) -/

theorem step_changes_weight (h : step s = .next t) (hreset : ¬ SoftResets s) (hne : t.weight ≠ s.weight) :
    s.busy = false ∧ ∃ x v, HostWrites s (.weight x) v := by
  obtain hr | ⟨i, p, s', -, ⟨hown, -⟩, -, hne⟩ | ⟨r, v, s', hwrites, hbusy, hwrite, -, hne⟩ :=
    step_changes_cases State.weight h hne
  · exact absurd hr hreset
  · cases i <;> exact absurd (congrArg State.weight hown) hne
  · cases hwrite with
    | weight x v hidle => exact ⟨hbusy ▸ hidle, x, v, hwrites⟩
    | _ => exact absurd rfl hne

theorem step_changes_node (h : step s = .next t) (hreset : ¬ SoftResets s) (hne : t.node ≠ s.node) :
    (s.busy = false ∧ ∃ i v, HostWrites s (.node i) v) ∨ ∃ p, EngineMoves s .build p := by
  obtain hr | ⟨i, p, s', hmoves, ⟨hown, -⟩, -, hne⟩ | ⟨r, v, s', hwrites, hbusy, hwrite, -, hne⟩ :=
    step_changes_cases State.node h hne
  · exact absurd hr hreset
  · cases i with
    | build => exact .inr ⟨p, hmoves⟩
    | _ => exact absurd (congrArg State.node hown) hne
  · cases hwrite with
    | node i v hidle => exact .inl ⟨hbusy ▸ hidle, i, v, hwrites⟩
    | _ => exact absurd rfl hne

/-- R32, R38: NODEW and ORPH are BUILD's. -/
theorem step_changes_build (h : step s = .next t) (hreset : ¬ SoftResets s)
    (hne : t.nodew ≠ s.nodew ∨ t.orph ≠ s.orph) : ∃ p, EngineMoves s .build p := by
  obtain ⟨i, p, s', hmoves, hown, hne⟩ := step_changes_engine_cases (fun s => (s.nodew, s.orph))
    h hreset (mt Prod.mk.inj (not_and_or.mpr hne))
  cases i with
  | build => exact ⟨p, hmoves⟩
  | _ => exact absurd (congrArg (fun s : State => (s.nodew, s.orph)) hown) hne

/-- The code table and the extractor's scratch. -/
def State.tableOf (s : State) : Vector Byte 256 × Vector Code 256 × Vector Byte 511 × Vector Code 511 :=
  (s.len, s.code, s.depth, s.acc)

/-- R33, R34, R39: the code table and the extractor's scratch are EXTRACT's. -/
theorem step_changes_extract (h : step s = .next t) (hreset : ¬ SoftResets s)
    (hne : (t.len ≠ s.len ∨ t.code ≠ s.code) ∨ t.depth ≠ s.depth ∨ t.acc ≠ s.acc) :
    ∃ p, EngineMoves s .extract p := by
  have hne : t.tableOf ≠ s.tableOf := by
    simp only [State.tableOf, ne_eq, Prod.mk.injEq]
    tauto
  obtain ⟨i, p, s', hmoves, hown, hne⟩ := step_changes_engine_cases State.tableOf h hreset hne
  cases i with
  | extract => exact ⟨p, hmoves⟩
  | _ => exact absurd (congrArg State.tableOf hown) hne

/-! ### DSTATE and the engine state (R37, R40) -/

theorem step_changes_dstate (h : step s = .next t) (hreset : ¬ SoftResets s) (hne : t.dstate ≠ s.dstate) :
    ∃ p, EngineMoves s .decode p ∨ EngineMoves s .clear p := by
  obtain ⟨i, p, s', hmoves, hown, hne⟩ := step_changes_engine_cases State.dstate h hreset hne
  cases i with
  | decode => exact ⟨p, .inl hmoves⟩
  | clear => exact ⟨p, .inr hmoves⟩
  | _ => exact absurd (congrArg State.dstate hown) hne

theorem step_changes_engine (h : step s = .next t) (hreset : ¬ SoftResets s) (hne : t.engine ≠ s.engine) :
    (∃ i p, EngineMoves s i p) ∨ (s.busy = false ∧ ∃ v, HostWrites s .cmd v) := by
  obtain hr | ⟨i, p, s', hmoves, -⟩ | ⟨r, v, s', hwrites, hbusy, hwrite, -, hne⟩ :=
    step_changes_cases State.engine h hne
  · exact absurd hr hreset
  · exact .inl ⟨i, p, hmoves⟩
  · cases hwrite with
    | commandIllegal v hidle => exact .inr ⟨hbusy ▸ hidle, v, hwrites⟩
    | commandAccepted v hidle => exact .inr ⟨hbusy ▸ hidle, v, hwrites⟩
    | _ => exact absurd rfl hne

end Writers

/-- Settles O52, register by register. -/
theorem eachRegisterHasItsWriters : Obligations.EachRegisterHasItsWriters := fun _ _ h hreset =>
  ⟨step_sets_done h hreset, step_clears_done h hreset, step_sets_dropped h hreset, step_clears_dropped h hreset,
    step_changes_error h hreset, step_changes_op h hreset, step_changes_result h hreset, step_changes_irqEn h hreset,
    step_changes_writeCursor h hreset, step_changes_readCursor h hreset, step_changes_weight h hreset,
    step_changes_node h hreset, fun hne => step_changes_build h hreset (.inl hne),
    fun hne => step_changes_extract h hreset (.inl hne), fun hne => step_changes_build h hreset (.inr hne),
    fun hne => step_changes_extract h hreset (.inr hne), step_changes_dstate h hreset, step_changes_engine h hreset⟩

end Sys2Proof.Machine

namespace Sys2Proof.Machine

/-! ## No step reads ORPH, DEPTH or ACC before writing them (R38, R39, I15) -/

/-- The state with other values in the scratch. -/
def State.withScratch (s : State) (orph : List NodeIx) (depth : Vector Byte 511) (acc : Vector Code 511) : State :=
  { s with orph := orph, depth := depth, acc := acc }

/-- The two results are the same outcome, and next states that differ in the scratch alone. -/
def SameUpToScratch (r r' : Result) : Prop :=
  match r with
  | .next t => ∃ orph depth acc, r' = .next (t.withScratch orph depth acc)
  | .fault f => r' = .fault f
  | .refused x => r' = .refused x

/-- What `k` makes of a state does not depend on the state's scratch. -/
def IgnoresScratch (k : State → Result) : Prop :=
  ∀ s orph depth acc, SameUpToScratch (k s) (k (s.withScratch orph depth acc))

/-- An update that neither reads nor writes the scratch. -/
def KeepsScratch (f : State → State) : Prop :=
  ∀ s orph depth acc, f (s.withScratch orph depth acc) = (f s).withScratch orph depth acc

theorem SameUpToScratch.refl (r : Result) : SameUpToScratch r r := by
  cases r with
  | next t => exact ⟨t.orph, t.depth, t.acc, rfl⟩
  | fault f => exact rfl
  | refused x => exact rfl

theorem KeepsScratch.ignores {f : State → State} (hf : KeepsScratch f) : IgnoresScratch (fun s => .next (f s)) :=
  fun s orph depth acc => ⟨orph, depth, acc, congrArg _ (hf s orph depth acc)⟩

theorem IgnoresScratch.comp {k : State → Result} {f : State → State} (hk : IgnoresScratch k) (hf : KeepsScratch f) :
    IgnoresScratch (fun s => k (f s)) := by
  intro s orph depth acc
  show SameUpToScratch (k (f s)) (k (f (s.withScratch orph depth acc)))
  rw [hf]
  exact hk (f s) orph depth acc

theorem IgnoresScratch.ite {c : State → Prop} [DecidablePred c] {k k' : State → Result}
    (hc : ∀ s orph depth acc, c (s.withScratch orph depth acc) ↔ c s) (hk : IgnoresScratch k)
    (hk' : IgnoresScratch k') : IgnoresScratch (fun s => if c s then k s else k' s) := by
  intro s orph depth acc
  by_cases h : c s
  · simpa only [if_pos h, if_pos ((hc s orph depth acc).mpr h)] using hk s orph depth acc
  · simpa only [if_neg h, if_neg (mt (hc s orph depth acc).mp h)] using hk' s orph depth acc

/-! ### The shared operations -/

theorem ignoresScratch_inTake {k : InToken → State → Result} (hk : ∀ tok, IgnoresScratch (k tok)) :
    IgnoresScratch (inTake k) := by
  intro s orph depth acc
  cases hsrc : s.source with
  | nil =>
    rw [inTake_nil hsrc, inTake_nil (s := s.withScratch orph depth acc) hsrc]
    exact ⟨orph, depth, acc, rfl⟩
  | cons tok rest =>
    rw [inTake_cons hsrc, inTake_cons (s := s.withScratch orph depth acc) hsrc]
    exact hk tok { s with source := rest } orph depth acc

theorem ignoresScratch_outPut (tok : OutToken) {k : State → Result} (hk : IgnoresScratch k) :
    IgnoresScratch (outPut tok k) := by
  intro s orph depth acc
  by_cases hroom : s.outq.length < Config.outCap
  · rw [outPut_room hroom, outPut_room (s := s.withScratch orph depth acc) hroom]
    exact hk { s with outq := s.outq ++ [tok] } orph depth acc
  · rw [outPut_full hroom, outPut_full (s := s.withScratch orph depth acc) hroom]
    exact ⟨orph, depth, acc, rfl⟩

theorem ignoresScratch_checkedTree (i : Instr) {k : State → Result} (hk : IgnoresScratch k) :
    IgnoresScratch (checkedTree i k) := by
  intro s orph depth acc
  cases hc : treeCheck s.node with
  | none =>
    rw [checkedTree_pass hc, checkedTree_pass (s := s.withScratch orph depth acc) hc]
    exact hk (validity .checkPasses s) orph depth acc
  | some x =>
    rw [checkedTree_fail hc, checkedTree_fail (s := s.withScratch orph depth acc) hc]
    exact ⟨orph, depth, acc, rfl⟩

theorem keepsScratch_raiseError (running : Option Instr) (e : ErrorKind) (info : State → Word)
    (hinfo : ∀ s orph depth acc, info (s.withScratch orph depth acc) = info s) :
    KeepsScratch (fun s => raiseError running e (info s) s) := by
  intro s orph depth acc
  simp only [hinfo]
  unfold raiseError
  split
  · rfl
  · split <;> rfl

theorem keepsScratch_putBit (i : Instr) (k : AfterOut) (b : State → Bool) {go : State → State}
    (hb : ∀ s orph depth acc, b (s.withScratch orph depth acc) = b s) (hgo : KeepsScratch go) :
    KeepsScratch (fun s => putBit i k (b s) go s) := by
  intro s orph depth acc
  simp only [hb]
  unfold putBit
  rw [show flushDue (s.withScratch orph depth acc) = flushDue s from rfl]
  split
  · rfl
  · exact hgo (shiftIn (b s) s) orph depth acc

/-! ### The commands -/

@[simp] theorem withScratch_phase (s : State) (orph : List NodeIx) (depth : Vector Byte 511) (acc : Vector Code 511) :
    (s.withScratch orph depth acc).phase = s.phase := rfl

theorem ignoresScratch_complete : IgnoresScratch (fun s => .next (complete s)) :=
  KeepsScratch.ignores fun _ _ _ _ => rfl

theorem ignoresScratch_latch (e : ErrorKind) (info : Word) : IgnoresScratch (fun s => .next (latch e info s)) :=
  KeepsScratch.ignores fun _ _ _ _ => rfl

theorem ignoresScratch_enter (i : Instr) (p : Phase) : IgnoresScratch (fun s => .next (enter i p s)) :=
  KeepsScratch.ignores fun _ _ _ _ => rfl

theorem ignoresScratch_execWbit (b : Bool) : IgnoresScratch (execWbit b) := by
  intro s orph depth acc
  unfold execWbit
  rw [withScratch_phase]
  cases s.phase with
  | start =>
    have hcomplete : KeepsScratch complete := fun _ _ _ _ => rfl
    exact (keepsScratch_putBit (.wbit b) .bitWritten (fun _ => b) (fun _ _ _ _ => rfl) hcomplete).ignores ..
  | inTake => exact .refl _
  | outPut tok k =>
    cases k with
    | bitWritten => exact ignoresScratch_outPut tok (ignoresScratch_complete.comp fun _ _ _ _ => rfl) ..
    | _ => exact .refl _

theorem ignoresScratch_execWclose : IgnoresScratch execWclose := by
  intro s orph depth acc
  unfold execWclose
  rw [withScratch_phase]
  cases s.phase with
  | start =>
    have hraise := keepsScratch_raiseError (some .wclose) .unalignedWriteClose (fun s => s.wcnt.setWidth 32)
      fun _ _ _ _ => rfl
    exact IgnoresScratch.ite (c := fun s => s.wcnt = 0#3) (fun _ _ _ _ => Iff.rfl) (ignoresScratch_enter _ _)
      hraise.ignores s orph depth acc
  | inTake => exact .refl _
  | outPut tok k =>
    cases k with
    | ended => exact ignoresScratch_outPut tok ignoresScratch_complete ..
    | aborted e info => exact ignoresScratch_outPut tok (ignoresScratch_latch e info) ..
    | _ => exact .refl _

theorem ignoresScratch_readToken (tok : InToken) : IgnoresScratch (readToken tok) := by
  cases tok <;> exact KeepsScratch.ignores fun _ _ _ _ => rfl

theorem ignoresScratch_execRbit : IgnoresScratch execRbit := by
  intro s orph depth acc
  unfold execRbit
  rw [withScratch_phase]
  cases s.phase with
  | start =>
    rw [show (s.withScratch orph depth acc).rcnt = s.rcnt from rfl]
    cases s.rcnt.toNat with
    | zero => exact ignoresScratch_enter _ _ s orph depth acc
    | succ n => exact KeepsScratch.ignores (f := readBit n) (fun _ _ _ _ => rfl) s orph depth acc
  | inTake => exact ignoresScratch_inTake ignoresScratch_readToken ..
  | outPut tok k => exact .refl _

theorem keepsScratch_emitCode (d : Byte) (n j : Nat) : KeepsScratch (emitCode d n j) := by
  induction n generalizing j with
  | zero => exact fun _ _ _ _ => rfl
  | succ n ih => exact keepsScratch_putBit _ _ _ (fun _ _ _ _ => rfl) (ih (j + 1))

theorem keepsScratch_emitPad (x : Byte) (n j : Nat) : KeepsScratch (emitPad x n j) := by
  induction n generalizing j with
  | zero => exact fun _ _ _ _ => rfl
  | succ n ih => exact keepsScratch_putBit _ _ _ (fun _ _ _ _ => rfl) (ih (j + 1))

theorem keepsScratch_pad : KeepsScratch pad := by
  intro s orph depth acc
  unfold pad
  rw [show (s.withScratch orph depth acc).wcnt = s.wcnt from rfl,
    show (s.withScratch orph depth acc).len = s.len from rfl]
  split
  · rfl
  · split
    · rfl
    · exact keepsScratch_emitPad _ _ _ s orph depth acc

theorem ignoresScratch_encodeToken (tok : InToken) : IgnoresScratch (encodeToken tok) := by
  cases tok with
  | byte d => exact fun s => (keepsScratch_emitCode d (lenAt s.len d) 0).ignores s
  | endStream => exact keepsScratch_pad.ignores
  | _ => exact KeepsScratch.ignores fun _ _ _ _ => rfl

theorem ignoresScratch_execEncode : IgnoresScratch execEncode := by
  intro s orph depth acc
  unfold execEncode
  rw [withScratch_phase]
  cases s.phase with
  | start =>
    exact IgnoresScratch.ite (c := fun s => s.tableValid = true) (fun _ _ _ _ => Iff.rfl) (ignoresScratch_enter _ _)
      (ignoresScratch_latch _ _) s orph depth acc
  | inTake => exact ignoresScratch_inTake ignoresScratch_encodeToken ..
  | outPut tok k =>
    cases k with
    | codeBit d j =>
      refine ignoresScratch_outPut tok (fun s => ?_) ..
      exact (keepsScratch_emitCode d (lenAt s.len d - (j + 1)) (j + 1)).ignores (clearWrite s)
    | padBit => exact ignoresScratch_outPut tok (KeepsScratch.ignores fun _ _ _ _ => rfl) ..
    | ended => exact ignoresScratch_outPut tok ignoresScratch_complete ..
    | aborted e info => exact ignoresScratch_outPut tok (ignoresScratch_latch e info) ..
    | _ => exact .refl _

theorem ignoresScratch_decodeBits (n : Nat) : IgnoresScratch (decodeBits n) := by
  induction n with
  | zero => exact KeepsScratch.ignores fun _ _ _ _ => rfl
  | succ n ih =>
    intro s orph depth acc
    unfold decodeBits
    rw [show walkBit (s.withScratch orph depth acc).node (s.withScratch orph depth acc).dstate
      (nextBit n (s.withScratch orph depth acc)) = walkBit s.node s.dstate (nextBit n s) from rfl]
    split
    · exact .refl _
    · rename_i c m _
      split
      · exact ih { setRcnt n s with dstate := c } orph depth acc
      · exact ignoresScratch_enter _ _ { setRcnt n s with dstate := c } orph depth acc

/-- A walk from the root over the bits not yet delivered. -/
theorem ignoresScratch_walk :
    IgnoresScratch (fun s => decodeBits s.rcnt.toNat { s with dstate := Config.root }) := fun s =>
  ignoresScratch_decodeBits s.rcnt.toNat { s with dstate := Config.root }

theorem ignoresScratch_decodeToken (tok : InToken) : IgnoresScratch (decodeToken tok) := by
  cases tok with
  | byte d => exact (ignoresScratch_decodeBits 8).comp (f := loadByte d) fun _ _ _ _ => rfl
  | _ => exact KeepsScratch.ignores fun _ _ _ _ => rfl

theorem ignoresScratch_execDecode : IgnoresScratch execDecode := by
  intro s orph depth acc
  unfold execDecode
  rw [withScratch_phase]
  cases s.phase with
  | start => exact ignoresScratch_checkedTree _ ignoresScratch_walk ..
  | inTake => exact ignoresScratch_inTake ignoresScratch_decodeToken ..
  | outPut tok k =>
    cases k with
    | symbol => exact ignoresScratch_outPut tok ignoresScratch_walk ..
    | ended => exact ignoresScratch_outPut tok ignoresScratch_complete ..
    | aborted e info => exact ignoresScratch_outPut tok (ignoresScratch_latch e info) ..
    | _ => exact .refl _

/-- R140: EXTRACT clears the scratch first and leaves free values behind. -/
theorem ignoresScratch_execExtract : IgnoresScratch execExtract := by
  refine ignoresScratch_checkedTree .extract fun s orph depth acc => ?_
  rw [show extractTable (s.withScratch orph depth acc).node = extractTable s.node from rfl]
  split
  · exact ⟨orph, _, _, rfl⟩
  · exact ⟨orph, _, _, rfl⟩

theorem writeLeaves_orph (w : Vector Word 256) (n : Nat) (b : Builder) (orph : List NodeIx) :
    writeLeaves w n { b with orph := orph } = { writeLeaves w n b with orph := orph } := by
  induction n with
  | zero => rfl
  | succ n ih =>
    simp only [writeLeaves, ih]
    rfl

/-- R110: BUILD writes the orphan sequence before it reads it. -/
theorem buildTree_orph (w : Vector Word 256) (b : Builder) (orph : List NodeIx) :
    buildTree w { b with orph := orph } = buildTree w b := by
  simp only [buildTree, writeLeaves_orph]

theorem ignoresScratch_execBuild : IgnoresScratch execBuild := by
  intro s orph depth acc
  have hsame : buildTree (s.withScratch orph depth acc).weight (s.withScratch orph depth acc).builder =
      buildTree s.weight s.builder := buildTree_orph s.weight s.builder orph
  unfold execBuild
  rw [hsame]
  generalize buildTree s.weight s.builder = b
  exact ⟨_, depth, acc, rfl⟩

theorem ignoresScratch_exec (i : Instr) : IgnoresScratch (exec i) := by
  cases i with
  | nop => exact ignoresScratch_complete
  | build => exact ignoresScratch_execBuild
  | check => exact ignoresScratch_checkedTree .check ignoresScratch_complete
  | extract => exact ignoresScratch_execExtract
  | encode => exact ignoresScratch_execEncode
  | decode => exact ignoresScratch_execDecode
  | wbit b => exact ignoresScratch_execWbit b
  | wclose => exact ignoresScratch_execWclose
  | rbit => exact ignoresScratch_execRbit
  | clear => exact KeepsScratch.ignores fun _ _ _ _ => rfl

/-! ### The other moves -/

/-- R62: no register of the window shows the scratch. -/
theorem readValue_withScratch (a : Offset) (s : State) (orph : List NodeIx) (depth : Vector Byte 511)
    (acc : Vector Code 511) : readValue a (s.withScratch orph depth acc) = readValue a s := rfl

theorem keepsScratch_present (v : Word) : KeepsScratch (present v) := by
  intro s orph depth acc
  unfold present
  rw [show (s.withScratch orph depth acc).busy = s.busy from rfl,
    show (s.withScratch orph depth acc).err = s.err from rfl]
  split
  · rfl
  · split
    · rfl
    · split <;> rfl

theorem ignoresScratch_writeReg (r : Reg) (v : Word) : IgnoresScratch (fun s => .next (writeReg r v s)) := by
  cases r with
  | ctrl =>
    intro s orph depth acc
    simp only [writeReg]
    split
    · exact .refl _
    · exact ⟨orph, depth, acc, rfl⟩
  | cmd => exact (keepsScratch_present v).ignores
  | weight | node =>
    intro s orph depth acc
    simp only [writeReg]
    rw [show (s.withScratch orph depth acc).busy = s.busy from rfl]
    split <;> exact ⟨orph, depth, acc, rfl⟩
  | _ => exact KeepsScratch.ignores fun _ _ _ _ => rfl

theorem ignoresScratch_hostAccess (a : HostAccess) : IgnoresScratch (hostAccess a) := by
  intro s orph depth acc
  unfold hostAccess
  split
  · exact .refl _
  · split
    · exact .refl _
    · split
      · exact ⟨orph, depth, acc, rfl⟩
      · unfold hostWrite
        split
        · exact ignoresScratch_writeReg _ _ s orph depth acc
        · exact ⟨orph, depth, acc, rfl⟩

theorem keepsScratch_advance (st : HostStmt) (rest : List HostStmt) (v : Word) : KeepsScratch (advance st rest v) := by
  cases st with
  | expect e w => cases e <;> exact fun _ _ _ _ => rfl
  | _ => exact fun _ _ _ _ => rfl

theorem ignoresScratch_hostMove : IgnoresScratch hostMove := by
  intro s orph depth acc
  unfold hostMove
  rw [show (s.withScratch orph depth acc).program = s.program from rfl]
  split
  · exact ⟨orph, depth, acc, rfl⟩
  · split
    · exact (keepsScratch_advance _ _ _).ignores s orph depth acc
    · rw [readValue_withScratch]
      exact (ignoresScratch_hostAccess _).comp (keepsScratch_advance _ _ _) s orph depth acc

theorem ignoresScratch_engineStep : IgnoresScratch engineStep := by
  intro s orph depth acc
  unfold engineStep
  rw [show fetch (s.withScratch orph depth acc) = fetch s from rfl]
  split
  · exact ⟨orph, depth, acc, rfl⟩
  · split
    · exact ignoresScratch_exec _ s orph depth acc
    · exact .refl _

theorem keepsScratch_sinkTake : KeepsScratch sinkTake := by
  intro s orph depth acc
  unfold sinkTake
  rw [show (s.withScratch orph depth acc).outq = s.outq from rfl]
  split <;> rfl

theorem ignoresScratch_move (e : Event) : IgnoresScratch (move e) := by
  cases e with
  | engine => exact ignoresScratch_engineStep
  | host a => exact ignoresScratch_hostAccess a
  | hostStmt => exact ignoresScratch_hostMove
  | offer tok => exact KeepsScratch.ignores fun _ _ _ _ => rfl
  | sinkTake => exact keepsScratch_sinkTake.ignores

theorem ignoresScratch_step : IgnoresScratch step := by
  intro s orph depth acc
  cases hag : s.agenda with
  | nil =>
    rw [step_of_agenda_nil hag, step_of_agenda_nil (s := s.withScratch orph depth acc) hag]
    exact ignoresScratch_engineStep s orph depth acc
  | cons e rest =>
    rw [step_of_agenda_cons hag, step_of_agenda_cons (s := s.withScratch orph depth acc) hag]
    exact ignoresScratch_move e { s with agenda := rest } orph depth acc

/-- Settles O50. -/
theorem scratchIsNeverRead : Obligations.ScratchIsNeverRead := by
  intro s orph depth acc
  have hsame := ignoresScratch_step s orph depth acc
  refine ⟨fun t ht => ?_, fun f hf => ?_, fun r hr => ?_⟩
  · rw [ht] at hsame
    exact hsame
  · rw [hf] at hsame
    exact hsame
  · rw [hr] at hsame
    exact hsame

end Sys2Proof.Machine

namespace Sys2Proof.Machine

/-! ## The register map (20_memory.md R62) -/

theorem regOf_offsetOf (r : Reg) : regOf (offsetOf r) = some r := by
  cases r with
  | weight x | codeLen x =>
    have hx := x.isLt
    simp (disch := omega) only [regOf, offsetOf, BitVec.toNat_ofNat, Nat.mod_eq_of_lt, if_neg, if_pos,
      Nat.add_sub_cancel_left, Nat.mul_div_cancel_left]
    simp
  | node i | nodeWLo i | nodeWHi i =>
    have hi := i.isLt
    simp (disch := omega) only [regOf, offsetOf, BitVec.toNat_ofNat, Nat.mod_eq_of_lt, if_neg, if_pos,
      Nat.add_sub_cancel_left, Nat.mul_div_cancel_left]
    simp [nodeReg, hi]
  | codeBits x k =>
    have hx := x.isLt
    have hk := k.isLt
    have hx' : (32 * x.toNat + 4 * k.val) / 32 = x.toNat := by omega
    have hk' : (32 * x.toNat + 4 * k.val) / 4 = 8 * x.toNat + k.val := by omega
    simp (disch := omega) only [regOf, offsetOf, BitVec.toNat_ofNat, Nat.mod_eq_of_lt, if_neg, if_pos,
      Nat.add_assoc, Nat.add_sub_cancel_left, hx', hk']
    simp [Fin.ext_iff, Nat.mod_eq_of_lt hk]
  | _ => rfl

theorem toNat_offsetOf_of_controlReg {n : Nat} {r : Reg} (h : controlReg n = some r) :
    (offsetOf r).toNat = 4 * n := by
  unfold controlReg at h
  split at h
  case h_10 => simp at h
  all_goals
    obtain rfl := Option.some.inj h
    rfl

theorem eq_of_nodeReg {mk : Fin 511 → Reg} {n : Nat} {r : Reg} (h : nodeReg mk n = some r) :
    ∃ i : Fin 511, i.val = n ∧ r = mk i := by
  unfold nodeReg at h
  split at h
  · exact ⟨⟨n, _⟩, rfl, (Option.some.inj h).symm⟩
  · simp at h

/-- Each range of the map, turned back: the index an offset names is the one its register's offset is made from. -/
theorem eq_offsetOf_of_regOf {a : Offset} {r : Reg} (ha : a.toNat % 4 = 0) (h : regOf a = some r) :
    a = offsetOf r := by
  have hlt := a.isLt
  refine BitVec.eq_of_toNat_eq ?_
  simp only [regOf] at h
  split at h
  · rw [toNat_offsetOf_of_controlReg h]
    omega
  split at h
  · obtain rfl := Option.some.inj h
    simp [offsetOf]
    omega
  iterate 3
    split at h
    · obtain ⟨i, hi, rfl⟩ := eq_of_nodeReg h
      simp [offsetOf, hi]
      omega
  split at h
  · obtain rfl := Option.some.inj h
    simp [offsetOf]
    omega
  split at h
  · simp at h
  split at h
  · obtain rfl := Option.some.inj h
    simp [offsetOf]
    omega
  · simp at h

theorem regOf_eq_some_iff {a : Offset} {r : Reg} (ha : a.toNat % 4 = 0) : regOf a = some r ↔ a = offsetOf r :=
  ⟨eq_offsetOf_of_regOf ha, fun h => h ▸ regOf_offsetOf r⟩

/-- Settles O5. -/
theorem registerOffsetsAreInverse : Obligations.RegisterOffsetsAreInverse := fun _ _ ha => regOf_eq_some_iff ha

theorem regOf_after_cursor {a : Offset} (hlo : 0x24 ≤ a.toNat) (hhi : a.toNat < 0x400) : regOf a = none := by
  have hn : 9 ≤ a.toNat / 4 := by omega
  simp only [regOf, if_pos hhi]
  unfold controlReg
  split
  case h_10 => rfl
  all_goals omega

theorem regOf_after_codeLen {a : Offset} (hlo : 0x2400 ≤ a.toNat) (hhi : a.toNat < 0x4000) : regOf a = none := by
  simp (disch := omega) only [regOf, if_neg, if_pos]

theorem regOf_after_codeBits {a : Offset} (hlo : 0x6000 ≤ a.toNat) : regOf a = none := by
  simp (disch := omega) only [regOf, if_neg]

/-- Settles O4: a row's offset is its register's, and no register's offset lies in a reserved range. -/
theorem registerMapRows : Obligations.RegisterMapRows := by
  have hnode : regOf 0x0FFC#15 = none := by decide
  have hlo : regOf 0x17FC#15 = none := by decide
  have hhi : regOf 0x1FFC#15 = none := by decide
  exact ⟨rfl, rfl, rfl, rfl, rfl, rfl, rfl, rfl, rfl, fun _ => regOf_after_cursor,
    fun x => regOf_offsetOf (.weight x), fun i => regOf_offsetOf (.node i), hnode,
    fun i => regOf_offsetOf (.nodeWLo i), hlo, fun i => regOf_offsetOf (.nodeWHi i), hhi,
    fun x => regOf_offsetOf (.codeLen x), fun _ => regOf_after_codeLen,
    fun x k => regOf_offsetOf (.codeBits x k), fun _ => regOf_after_codeBits⟩

end Sys2Proof.Machine

namespace Sys2Proof.Machine

/-! ## Host accesses within the contract (20_memory.md R61, R64, R65) -/

theorem aligned_iff (a : HostAccess) : a.aligned = true ↔ a.offset.toNat % 4 = 0 := by
  simp [HostAccess.aligned, ← BitVec.toNat_inj]

theorem wf_iff (a : HostAccess) : a.wf = true ↔ a.bytes = 4 ∧ a.offset.toNat % 4 = 0 := by
  rw [HostAccess.wf, Bool.and_eq_true, aligned_iff]
  simp [HostAccess.widthOk]

/-- Settles O6. -/
theorem accessesOutsideTheContractAreRefused : Obligations.AccessesOutsideTheContractAreRefused := by
  intro s a
  have hwf := wf_iff a
  obtain ⟨hbad, hr | hr⟩ | ⟨hok, -, hr⟩ | ⟨hok, v, -, hr⟩ := hostAccess_cases a s
  case inl.inl | inl.inr =>
    have hout : ¬ (a.bytes = 4 ∧ a.offset.toNat % 4 = 0) := by simp [← hwf, hbad]
    exact ⟨fun _ => ⟨_, hr⟩, fun hb ha => absurd ⟨hb, ha⟩ hout⟩
  all_goals
    obtain ⟨hb, ha⟩ := hwf.mp hok
    exact ⟨fun hout => absurd hout (by simp [hb, ha]), fun _ _ => ⟨_, hr⟩⟩

theorem hostAccess_read {a : Offset} (ha : a.toNat % 4 = 0) (s : State) :
    hostAccess { kind := .read, offset := a, bytes := 4 } s = .next (hostRead a s) := by
  have haligned := (aligned_iff { kind := .read, offset := a, bytes := 4 }).mpr ha
  simp [hostAccess, HostAccess.widthOk, haligned]

theorem hostAccess_write {a : Offset} (ha : a.toNat % 4 = 0) (v : Word) (s : State) :
    hostAccess { kind := .write v, offset := a, bytes := 4 } s = .next (hostWrite a v s) := by
  have haligned := (aligned_iff { kind := .write v, offset := a, bytes := 4 }).mpr ha
  simp [hostAccess, HostAccess.widthOk, haligned]

theorem toNat_offsetOf_mod_four (r : Reg) : (offsetOf r).toNat % 4 = 0 := by
  cases r with
  | weight | node | nodeWLo | nodeWHi | codeLen | codeBits =>
    simp only [offsetOf, BitVec.toNat_ofNat]
    omega
  | _ => rfl

theorem hostAccess_readReg (r : Reg) (s : State) : hostAccess (readReg r) s = .next (hostRead (offsetOf r) s) :=
  hostAccess_read (toNat_offsetOf_mod_four r) s

theorem hostAccess_writeRegAccess (r : Reg) (v : Word) (s : State) :
    hostAccess (writeRegAccess r v) s = .next (writeReg r v s) := by
  rw [writeRegAccess, hostAccess_write (toNat_offsetOf_mod_four r), hostWrite, regOf_offsetOf]

/-! ### Reads -/

theorem readIsOpen_offsetOf (r : Reg) (s : State) : readIsOpen (offsetOf r) s = (s.busy && openWhileBusy r) := by
  simp [readIsOpen, regOf_offsetOf]

/-- R63: also while a command runs. -/
theorem hostRead_reserved {a : Offset} (h : regOf a = none) (s : State) :
    hostRead a s = { s with reads := s.reads ++ [(a, 0#32)] } := by
  simp [hostRead, readValue, readIsOpen, h]

/-- R65: a read that is not open gives the register's value. -/
theorem readsAs_regValue {r : Reg} {s : State} (h : (s.busy && openWhileBusy r) = false) :
    ReadsAs s r (regValue r s) := by
  have hopen := (readIsOpen_offsetOf r s).trans h
  have hvalue : readValue (offsetOf r) s = regValue r s := by simp [readValue, hopen, regOf_offsetOf]
  exact (hostAccess_readReg r s).trans (by simp [hostRead, hopen, hvalue])

/-- R65, I7: an open read gives a free value. -/
theorem readsOpen_of_busy {r : Reg} {s : State} (hbusy : s.busy = true) (h : openWhileBusy r = true) :
    ReadsOpen s r := by
  have hopen : readIsOpen (offsetOf r) s = true := by simp [readIsOpen_offsetOf, hbusy, h]
  exact (hostAccess_readReg r s).trans (by simp [hostRead, readValue, hopen])

/-- Settles O8: each register is on one side of `openWhileBusy`, and its value is a field's by definition. -/
theorem hostReadReturnsCurrentValue : Obligations.HostReadReturnsCurrentValue := by
  intro s
  have hclosed {r : Reg} (h : openWhileBusy r = false) : ReadsAs s r (regValue r s) :=
    readsAs_regValue (by simp [h])
  refine ⟨hclosed rfl, hclosed rfl, hclosed rfl, hclosed rfl, hclosed rfl, hclosed rfl, hclosed rfl,
    fun x => hclosed (r := .weight x) rfl, fun hidle => ?_, fun hbusy => ?_⟩
  · have hread (r : Reg) : ReadsAs s r (regValue r s) := readsAs_regValue (by simp [hidle])
    exact ⟨hread .result, hread .cursor, fun i => ⟨hread (.node i), hread (.nodeWLo i), hread (.nodeWHi i)⟩,
      fun x => hread (.codeLen x), fun x k => hread (.codeBits x k)⟩
  · have hread {r : Reg} (h : openWhileBusy r = true) : ReadsOpen s r := readsOpen_of_busy hbusy h
    exact ⟨hread rfl, hread rfl, fun i => ⟨hread rfl, hread rfl, hread rfl⟩, fun x => hread rfl,
      fun x k => hread rfl⟩

/-! ### Writes -/

/-- R64, R63: a write that names none of the six writable registers is ignored. -/
theorem hostWrite_ignored {a : Offset} {v : Word} {s : State}
    (h : ∀ r, regOf a = some r → r ≠ .ctrl ∧ r ≠ .status ∧ r ≠ .irqEn ∧ r ≠ .cmd ∧ (∀ x, r ≠ .weight x) ∧
      (∀ i, r ≠ .node i)) : hostWrite a v s = s := by
  cases hreg : regOf a with
  | none => simp [hostWrite, hreg]
  | some r =>
    have hr := h r hreg
    rw [hostWrite, hreg]
    cases r with
    | ctrl | status | irqEn | cmd | weight | node => simp at hr
    | _ => rfl

/-- Settles O7. -/
theorem reservedAndReadOnlyOffsets : Obligations.ReservedAndReadOnlyOffsets := by
  intro s a v ha
  refine ⟨fun hreg => ⟨?_, ?_⟩, fun r hreg hro => ?_, fun r hr => ?_⟩
  · exact (hostAccess_read ha s).trans (congrArg _ (hostRead_reserved hreg s))
  · exact (hostAccess_write ha v s).trans (congrArg _ (hostWrite_ignored (by simp [hreg])))
  · refine (hostAccess_write ha v s).trans (congrArg _ (hostWrite_ignored fun r' hreg' => ?_))
    obtain rfl : r = r' := by simpa [hreg] using hreg'
    obtain rfl | rfl | rfl | rfl | rfl | ⟨i, rfl⟩ | ⟨i, rfl⟩ | ⟨x, rfl⟩ | ⟨x, k, rfl⟩ := hro <;> simp
  · obtain rfl | rfl := hr
    · exact readsAs_regValue (r := .ctrl) (by simp [openWhileBusy])
    · exact readsAs_regValue (r := .cmd) (by simp [openWhileBusy])

/-- R64: WEIGHT and NODE are written only while no command runs. -/
theorem hostAccess_write_storage {r : Reg} {v : Word} {s t : State}
    (h : writeReg r v s = if s.busy = true then drop s else t) :
    (s.busy = true → hostAccess (writeRegAccess r v) s = .next (drop s)) ∧
      (s.busy = false → hostAccess (writeRegAccess r v) s = .next t) := by
  rw [hostAccess_writeRegAccess, h]
  exact ⟨fun hbusy => by rw [if_pos hbusy], fun hidle => by simp [hidle]⟩

/-- Settles O9. -/
theorem hostWriteEffects : Obligations.HostWriteEffects := by
  intro s v
  have hwrite (r : Reg) : hostAccess (writeRegAccess r v) s = .next (writeReg r v s) :=
    hostAccess_writeRegAccess r v s
  exact ⟨hwrite .ctrl, hwrite .status, hwrite .irqEn, hwrite .cmd, fun x => hostAccess_write_storage rfl,
    fun i => hostAccess_write_storage rfl, toWord_ofWord v,
    fun a ha hr => (hostAccess_write ha v s).trans (congrArg _ (hostWrite_ignored hr))⟩

end Sys2Proof.Machine

namespace Sys2Proof.Machine

/-! ## Waiting (20_memory.md R71, R72, R74) -/

section Waits
variable {i : Instr} {s : State}

/-- The OutPuts of a command's own, by what follows them (R164, R165, R180, R200). -/
inductive OwnOutPut : Instr → AfterOut → Prop
  | bitWritten (b : Bool) : OwnOutPut (.wbit b) .bitWritten
  | codeBit (x : Byte) (j : Nat) : OwnOutPut .encode (.codeBit x j)
  | padBit : OwnOutPut .encode .padBit
  | symbol : OwnOutPut .decode .symbol
  | ended {i : Instr} (hi : i = .encode ∨ i = .decode ∨ i = .wclose) : OwnOutPut i .ended
  | aborted {i : Instr} (hi : i = .encode ∨ i = .decode ∨ i = .wclose) (e : ErrorKind) (info : Word) :
    OwnOutPut i (.aborted e info)

/-- R71: each of the three commands that take tokens stands at the primitive itself. -/
theorem exec_of_no_token (hi : i = .encode ∨ i = .decode ∨ i = .rbit) (hrun : Runs i .inTake s)
    (hsrc : s.source = []) : exec i s = .next s := by
  have hphase := phase_of_runs hrun
  obtain rfl | rfl | rfl := hi
  · simp [exec, execEncode, hphase, inTake_nil hsrc]
  · simp [exec, execDecode, hphase, inTake_nil hsrc]
  · simp [exec, execRbit, hphase, inTake_nil hsrc]

/-- R72: a command at an OutPut of its own is that OutPut and what follows it. -/
theorem exec_of_ownOutPut {tok : OutToken} {k : AfterOut} (hown : OwnOutPut i k) (hrun : Runs i (.outPut tok k) s) :
    ∃ cont, exec i s = outPut tok cont s := by
  have hphase := phase_of_runs hrun
  cases hown with
  | bitWritten b => exact ⟨_, by rw [exec, execWbit, hphase]⟩
  | codeBit | padBit => exact ⟨_, by rw [exec, execEncode, hphase]⟩
  | symbol => exact ⟨_, by rw [exec, execDecode, hphase]⟩
  | ended hi =>
    obtain rfl | rfl | rfl := hi
    · exact ⟨_, by rw [exec, execEncode, hphase]⟩
    · exact ⟨_, by rw [exec, execDecode, hphase]⟩
    · exact ⟨_, by rw [exec, execWclose, hphase]⟩
  | aborted hi e info =>
    obtain rfl | rfl | rfl := hi
    · exact ⟨_, by rw [exec, execEncode, hphase]⟩
    · exact ⟨_, by rw [exec, execDecode, hphase]⟩
    · exact ⟨_, by rw [exec, execWclose, hphase]⟩

theorem exec_of_full {tok : OutToken} {k : AfterOut} (hown : OwnOutPut i k) (hrun : Runs i (.outPut tok k) s)
    (hfull : ¬ hasRoom s) : exec i s = .next s := by
  obtain ⟨cont, hexec⟩ := exec_of_ownOutPut hown hrun
  rw [hexec, outPut_full hfull]

end Waits

/-- Settles O20. -/
theorem waitingChangesNothing : Obligations.WaitingChangesNothing := by
  intro s
  refine ⟨fun i hi hrun hsrc => exec_of_no_token hi hrun hsrc, fun b d => exec_of_full (.bitWritten b),
    fun d x j => exec_of_full (.codeBit x j), fun d => exec_of_full .padBit, fun d => exec_of_full .symbol,
    fun i hi hrun hfull => ?_, fun hidle hag => ?_⟩
  · obtain hrun | ⟨e, info, hrun⟩ := hrun
    · exact exec_of_full (.ended hi) hrun hfull
    · exact exec_of_full (.aborted hi e info) hrun hfull
  · rw [step_of_agenda_nil hag]
    simp [engineStep, fetch, hidle]

/-! ## What the moves outside the engine leave alone -/

section Keeps
variable {s t : State} {α : Type}

/-- A field that neither the soft reset nor another register write touches. -/
theorem writeReg_keeps (f : State → α) (r : Reg) (v : Word) (s : State)
    (hreset : ∀ s, f (softReset s) = f s := by exact fun _ => rfl)
    (hw : ∀ s r v t, RegWrite s r v t → f t = f s := by exact fun _ _ _ _ hw => by cases hw <;> rfl) :
    f (writeReg r v s) = f s := by
  by_cases h : r = .ctrl ∧ v.getLsbD 0 = true
  · obtain ⟨rfl, hbit⟩ := h
    rw [writeReg, if_pos hbit, hreset]
  · exact hw s r v _ (regWrite_writeReg r v s h)

/-- A field that a host access leaves alone when neither the record of reads nor a register write touches it. -/
theorem hostAccess_keeps (f : State → α) {a : HostAccess} (h : hostAccess a s = .next t)
    (hread : ∀ a s, f (hostRead a s) = f s := by exact fun _ _ => rfl)
    (hwrite : ∀ r v s, f (writeReg r v s) = f s) : f t = f s := by
  obtain ⟨-, hr | hr⟩ | ⟨-, -, hr⟩ | ⟨-, v, -, hr⟩ := hostAccess_cases a s
  · simp [hr] at h
  · simp [hr] at h
  · obtain rfl : hostRead a.offset s = t := by simpa [hr] using h
    exact hread ..
  · obtain rfl : hostWrite a.offset v s = t := by simpa [hr] using h
    unfold hostWrite
    split
    · exact hwrite ..
    · rfl

theorem exec_keeps_program {i : Instr} (h : exec i s = .next t) : t.program = s.program := by
  obtain ⟨hown, -⟩ := exec_writes h
  rw [hown]
  cases i <;> rfl

theorem engineStep_keeps_program (h : engineStep s = .next t) : t.program = s.program := by
  obtain rfl | ⟨w, p, i, -, -, hexec⟩ := engineStep_next_cases h
  · rfl
  · exact exec_keeps_program hexec

theorem sinkTake_program (s : State) : (sinkTake s).program = s.program := by
  unfold sinkTake
  split <;> rfl

end Keeps

/-! ## WAIT (20_memory.md R78) -/

theorem statusWord_busy (s : State) : (statusWord s).getLsbD 0 = s.busy := (statusFields s).1

/-- R97, R98: WAIT's move reads STATUS, and passes when the word read has BUSY = 0. -/
theorem hostMove_wait {s : State} {rest : List HostStmt} (h : s.program = .wait :: rest) :
    hostMove s = .next { s with
      program := if s.busy = true then .wait :: rest else rest
      reads := s.reads ++ [(0x0008#15, statusWord s)], bindings := ("t", statusWord s) :: s.bindings } := by
  obtain ⟨hnone, -⟩ | ⟨a, ha, hmove⟩ := hostMove_cons h
  · simp [stmtAccess] at hnone
  · obtain rfl : readReg .status = a := by simpa [stmtAccess] using ha
    have hvalue : readValue (readReg .status).offset s = statusWord s := by
      simp [readReg, readValue, readIsOpen_offsetOf, openWhileBusy, regOf_offsetOf, regValue]
    have hread : ReadsAs (advance .wait rest (statusWord s) s) .status (statusWord s) :=
      readsAs_regValue (by simp [openWhileBusy])
    rw [hmove, hvalue]
    refine hread.trans ?_
    rw [← statusWord_busy]
    rfl

/-- Only the host's own moves touch its program: no engine step and no access does (log 13). -/
theorem move_keeps_program {e : Event} {s t : State} (h : move e s = .next t) (he : e ≠ .hostStmt) :
    t.program = s.program := by
  cases e with
  | engine => exact engineStep_keeps_program h
  | host a => exact hostAccess_keeps State.program h (hwrite := writeReg_keeps State.program)
  | hostStmt => exact absurd rfl he
  | offer tok =>
    obtain rfl := Host.Outcome.next.inj h
    rfl
  | sinkTake =>
    obtain rfl := Host.Outcome.next.inj h
    exact sinkTake_program s

/-- Settles O59: of all moves only the host's own can pass the WAIT. -/
theorem waitEndsOnlyWhenNotBusy : Obligations.WaitEndsOnlyWhenNotBusy := by
  intro s rest hprog
  have hmove := hostMove_wait hprog
  refine ⟨fun hbusy => hmove.trans (by simp [hbusy, hprog]), fun hidle => hmove.trans (by simp [hidle]), fun t h => ?_⟩
  cases hag : s.agenda with
  | nil =>
    rw [step_of_agenda_nil hag] at h
    exact .inl ((engineStep_keeps_program h).trans hprog)
  | cons e later =>
    rw [step_of_agenda_cons hag] at h
    by_cases he : e = .hostStmt
    · subst he
      have hwait := hostMove_wait (s := { s with agenda := later }) hprog
      obtain rfl := Host.Outcome.next.inj (hwait.symm.trans h)
      by_cases hbusy : s.busy = true
      · exact .inl (if_pos hbusy)
      · exact .inr ⟨by simpa using hbusy, if_neg hbusy⟩
    · exact .inl ((move_keeps_program h he).trans hprog)

end Sys2Proof.Machine

namespace Sys2Proof.Machine

/-! ## The order of the tokens on the two ports (20_memory.md R71 to R73) -/

/-- The OUT queue, the tokens SINK has received, and the tokens SOURCE has offered. -/
def State.ports (s : State) : List OutToken × List OutToken × List InToken := (s.outq, s.sunk, s.source)

/-- What R73 lets a step do to the ports. -/
def PortsInOrder (s t : State) : Prop :=
  (emitted t = emitted s ∨ ∃ o, emitted t = emitted s ++ [o]) ∧
    (t.source = s.source ∨ (∃ o, s.source = o :: t.source ∧ inReady s = true) ∨ ∃ o, t.source = s.source ++ [o])

section Ports
variable {s t : State}

theorem ports_eq_iff : t.ports = s.ports ↔ t.outq = s.outq ∧ t.sunk = s.sunk ∧ t.source = s.source := by
  simp [State.ports]

theorem portsInOrder_of_same (h : t.ports = s.ports) : PortsInOrder s t := by
  obtain ⟨hout, hsunk, hsrc⟩ := ports_eq_iff.mp h
  exact ⟨.inl (by rw [emitted, hout, hsunk, emitted]), .inl hsrc⟩

theorem portsInOrder_of_out {tok : OutToken} (h : t.ports = { s with outq := s.outq ++ [tok] }.ports) :
    PortsInOrder s t := by
  obtain ⟨hout, hsunk, hsrc⟩ := ports_eq_iff.mp h
  exact ⟨.inr ⟨tok, by rw [emitted, hout, hsunk, emitted, List.append_assoc]⟩, .inl hsrc⟩

theorem inReady_of_inTake (h : s.phase = .inTake) : inReady s = true := by
  cases heng : s.engine with
  | idle => simp [State.phase, heng] at h
  | run w p =>
    obtain rfl : p = .inTake := by simpa [State.phase, heng] using h
    simp [inReady, heng]

theorem portsInOrder_of_in {tok : InToken} {rest : List InToken} (hphase : s.phase = .inTake)
    (hsrc : s.source = tok :: rest) (h : t.ports = { s with source := rest }.ports) : PortsInOrder s t := by
  obtain ⟨hout, hsunk, hsrc'⟩ := ports_eq_iff.mp h
  exact ⟨.inl (by rw [emitted, hout, hsunk, emitted]),
    .inr (.inl ⟨tok, by rw [hsrc, hsrc'], inReady_of_inTake hphase⟩)⟩

/-- A command inside InTake takes the oldest token, if there is one, and what it does with it touches no port. -/
theorem portsInOrder_of_inTake {k : InToken → State → Result} (hphase : s.phase = .inTake) (h : inTake k s = .next t)
    (hk : ∀ tok s t, k tok s = .next t → t.ports = s.ports) : PortsInOrder s t := by
  obtain rfl | ⟨tok, rest, hsrc, htok⟩ := inTake_next_cases h
  · exact portsInOrder_of_same rfl
  · exact portsInOrder_of_in hphase hsrc (hk _ _ _ htok)

/-! ### What the commands do beside their port primitives -/

theorem WritesCursorOnly.ports (h : WritesCursorOnly s t) : t.ports = s.ports := by
  obtain ⟨wbuf, wcnt, engine, rfl⟩ := h
  rfl

theorem decodeBits_ports {n : Nat} (h : decodeBits n s = .next t) : t.ports = s.ports := by
  obtain ⟨rcnt, dstate, engine, rfl⟩ := decodeBits_frame h
  rfl

theorem decodeToken_ports {tok : InToken} (h : decodeToken tok s = .next t) : t.ports = s.ports := by
  obtain ⟨rbuf, rcnt, dstate, engine, rfl⟩ := decodeToken_frame h
  rfl

theorem readToken_ports {tok : InToken} (h : readToken tok s = .next t) : t.ports = s.ports := by
  obtain ⟨d, rfl⟩ | rfl | ⟨info, rfl⟩ := readToken_next_cases h <;> rfl

theorem putBit_complete_ports (i : Instr) (k : AfterOut) (b : Bool) (s : State) :
    (putBit i k b complete s).ports = s.ports := by
  obtain ⟨-, hput⟩ | ⟨-, hput⟩ := putBit_cases i k b complete s <;> exact hput ▸ rfl

/-! ### The port commands -/

theorem execWbit_portsInOrder {b : Bool} (h : execWbit b s = .next t) : PortsInOrder s t := by
  obtain rfl | ⟨-, rfl⟩ | ⟨tok, -, -, rfl⟩ := execWbit_next_cases h
  · exact portsInOrder_of_same rfl
  · exact portsInOrder_of_same (putBit_complete_ports ..)
  · exact portsInOrder_of_out (tok := tok) rfl

theorem execWclose_portsInOrder (h : execWclose s = .next t) : PortsInOrder s t := by
  obtain rfl | ⟨-, -, rfl⟩ | ⟨-, -, rfl⟩ | ⟨tok, -, -, rfl⟩ | ⟨tok, e, info, -, -, rfl⟩ := execWclose_next_cases h
  · exact portsInOrder_of_same rfl
  · exact portsInOrder_of_same rfl
  · exact portsInOrder_of_same rfl
  · exact portsInOrder_of_out (tok := tok) rfl
  · exact portsInOrder_of_out (tok := tok) rfl

theorem execRbit_portsInOrder (h : execRbit s = .next t) : PortsInOrder s t := by
  obtain rfl | ⟨-, -, rfl⟩ | ⟨-, n, rfl⟩ | ⟨hphase, -⟩ := execRbit_next_cases h
  · exact portsInOrder_of_same rfl
  · exact portsInOrder_of_same rfl
  · exact portsInOrder_of_same rfl
  · rw [execRbit, hphase] at h
    exact portsInOrder_of_inTake hphase h fun _ _ _ => readToken_ports

theorem execEncode_portsInOrder (h : execEncode s = .next t) : PortsInOrder s t := by
  obtain rfl | ⟨-, -, rfl⟩ | ⟨-, rfl⟩ | ⟨hphase, -⟩ | ⟨tok, k, s', -, -, rfl, hout⟩ := execEncode_next_cases h
  · exact portsInOrder_of_same rfl
  · exact portsInOrder_of_same rfl
  · exact portsInOrder_of_same rfl
  · rw [execEncode, hphase] at h
    exact portsInOrder_of_inTake hphase h fun _ _ _ htok => (writesCursorOnly_encodeToken htok).ports
  · refine portsInOrder_of_out (tok := tok) ?_
    obtain ⟨d, j, -, rfl⟩ | ⟨-, rfl⟩ | ⟨-, rfl⟩ | ⟨e, info, -, rfl⟩ := hout
    · exact (writesCursorOnly_emitCode ..).ports
    · rfl
    · rfl
    · rfl

theorem execDecode_portsInOrder (h : execDecode s = .next t) : PortsInOrder s t := by
  obtain rfl | ⟨-, hstart⟩ | ⟨hphase, -⟩ | ⟨tok, k, s', -, -, rfl, hout⟩ := execDecode_next_cases h
  · exact portsInOrder_of_same rfl
  · obtain ⟨n, c, -, rfl⟩ | ⟨-, hbits⟩ := checkedTree_next_cases hstart
    · exact portsInOrder_of_same rfl
    · exact portsInOrder_of_same ((decodeBits_ports hbits).trans rfl)
  · rw [execDecode, hphase] at h
    exact portsInOrder_of_inTake hphase h fun _ _ _ => decodeToken_ports
  · refine portsInOrder_of_out (tok := tok) ?_
    obtain ⟨-, hbits⟩ | ⟨-, rfl⟩ | ⟨e, info, -, rfl⟩ := hout
    · exact (decodeBits_ports hbits).trans rfl
    · rfl
    · rfl

/-- The other five commands own neither the queues nor the record of SINK (`writtenBy`). -/
theorem exec_portsInOrder {i : Instr} (h : exec i s = .next t) : PortsInOrder s t := by
  obtain ⟨hown, -⟩ := exec_writes h
  cases i with
  | encode => exact execEncode_portsInOrder h
  | decode => exact execDecode_portsInOrder h
  | wbit b => exact execWbit_portsInOrder h
  | wclose => exact execWclose_portsInOrder h
  | rbit => exact execRbit_portsInOrder h
  | _ => exact portsInOrder_of_same ((congrArg State.ports hown).trans rfl)

/-! ### The moves -/

theorem engineStep_portsInOrder (h : engineStep s = .next t) : PortsInOrder s t := by
  obtain rfl | ⟨w, p, i, -, -, hexec⟩ := engineStep_next_cases h
  · exact portsInOrder_of_same rfl
  · exact exec_portsInOrder hexec

theorem hostAccess_ports {a : HostAccess} (h : hostAccess a s = .next t) : t.ports = s.ports :=
  hostAccess_keeps State.ports h (hwrite := writeReg_keeps State.ports)

theorem advance_ports (st : HostStmt) (rest : List HostStmt) (v : Word) (s : State) :
    (advance st rest v s).ports = s.ports := by
  rw [advance_frame]
  rfl

theorem hostMove_ports (h : hostMove s = .next t) : t.ports = s.ports := by
  cases hprog : s.program with
  | nil =>
    obtain rfl := Host.Outcome.next.inj ((hostMove_nil hprog).symm.trans h)
    rfl
  | cons st rest =>
    obtain ⟨-, hmove⟩ | ⟨a, -, hmove⟩ := hostMove_cons hprog
    · obtain rfl := Host.Outcome.next.inj (hmove.symm.trans h)
      exact advance_ports ..
    · exact (hostAccess_ports (hmove.symm.trans h)).trans (advance_ports ..)

/-- R74: a token that SINK takes stays among those OUT has accepted. -/
theorem sinkTake_portsInOrder (s : State) : PortsInOrder s (sinkTake s) := by
  unfold sinkTake
  split
  · exact portsInOrder_of_same rfl
  · rename_i tok rest hq
    exact ⟨.inl (by simp [emitted, hq]), .inl rfl⟩

theorem move_portsInOrder {e : Event} (h : move e s = .next t) : PortsInOrder s t := by
  cases e with
  | engine => exact engineStep_portsInOrder h
  | host a => exact portsInOrder_of_same (hostAccess_ports h)
  | hostStmt => exact portsInOrder_of_same (hostMove_ports h)
  | offer tok =>
    obtain rfl := Host.Outcome.next.inj h
    exact ⟨.inl rfl, .inr (.inr ⟨tok, rfl⟩)⟩
  | sinkTake =>
    obtain rfl := Host.Outcome.next.inj h
    exact sinkTake_portsInOrder s

end Ports

/-- Settles O54. -/
theorem portTokensKeepTheirOrder : Obligations.PortTokensKeepTheirOrder := by
  intro s t h
  cases hag : s.agenda with
  | nil =>
    rw [step_of_agenda_nil hag] at h
    exact engineStep_portsInOrder h
  | cons e rest =>
    rw [step_of_agenda_cons hag] at h
    exact move_portsInOrder (s := { s with agenda := rest }) h

end Sys2Proof.Machine

namespace Sys2Proof.Machine

/-! ## The legal command words and the illegal ones (30_encoding.md R92, R93) -/

theorem decode_eq_ok_iff (v : Word) (i : Instr) : decode v = .ok i ↔ v = encode i :=
  ⟨eq_encode_of_decode, fun h => h ▸ decode_encode i⟩

/-- Settles O1. -/
theorem decoderAcceptsExactlyTheTable : Obligations.DecoderAcceptsExactlyTheTable :=
  ⟨decode_eq_ok_iff, rfl, rfl, rfl, rfl, rfl, rfl, rfl, rfl, rfl, rfl, rfl⟩

/-- Settles O3. -/
theorem writtenOutWordsDecode : Obligations.WrittenOutWordsDecode := by
  unfold Obligations.WrittenOutWordsDecode
  decide

theorem illegal_encode (i : Instr) : illegal (encode i) = false := by
  cases i with
  | wbit b => cases b <;> rfl
  | _ => rfl

/-- R92, R93: a word is illegal exactly when it stands for no command. -/
theorem illegal_iff_decode_error (v : Word) : illegal v = true ↔ ∃ e, decode v = .error e := by
  constructor
  · intro hillegal
    cases hdec : decode v with
    | error e => exact ⟨e, rfl⟩
    | ok i => simp [eq_encode_of_decode hdec, illegal_encode] at hillegal
  · rintro ⟨e, hdec⟩
    exact illegal_of_decode_error hdec

/-- R93, clause by clause. -/
theorem illegal_iff (v : Word) :
    illegal v = true ↔ v.extractLsb' 9 23 ≠ 0#23 ∨ 0x0A ≤ (v.extractLsb' 0 8).toNat ∨
      (v.getLsbD 8 = true ∧ v.extractLsb' 0 8 ≠ 0x06#8) := by
  simp [illegal, rsvOf, opcOf, bOf, BitVec.le_def, or_assoc]

/-- R220: of the cases of `present_cases`, nothing drops the word, and it has no command. -/
theorem present_of_decode_error {v : Word} {e : IllegalWord} {s : State} (hdec : decode v = .error e)
    (hidle : s.busy = false) (hnoErr : s.err = false) :
    present v s = latch .illegalCommand v { s with done := false } := by
  obtain ⟨-, hbusy | herr⟩ | ⟨-, -, ⟨-, -, hpresent⟩ | ⟨i, hok, -⟩⟩ := present_cases v s
  · simp [hidle] at hbusy
  · simp [hnoErr] at herr
  · exact hpresent
  · simp [hdec] at hok

/-- R242: a raise by acceptance finds the engine idle and leaves it so. -/
theorem latch_of_idle {s : State} (hidle : s.busy = false) (e : ErrorKind) (info : Word) :
    latch e info s = { s with errCode := e.code, errInfo := info, err := true } := by
  have hengine : s.engine = .idle := by simpa [hidle] using busy_iff s
  rw [latch, ← hengine]

/-- Settles O2. -/
theorem illegalWordsRaiseIllegalCommand : Obligations.IllegalWordsRaiseIllegalCommand := by
  refine fun s v => ⟨(illegal_iff v).symm.trans (illegal_iff_decode_error v), fun ⟨e, hdec⟩ hidle hnoErr => ?_⟩
  calc move (.host (writeRegAccess .cmd v)) s
    _ = .next (present v s) := hostAccess_writeRegAccess .cmd v s
    _ = .next (latch .illegalCommand v { s with done := false }) := by
      rw [present_of_decode_error hdec hidle hnoErr]
    _ = .next { s with done := false, errCode := 5#4, errInfo := v, err := true } := by
      rw [latch_of_idle (s := { s with done := false }) hidle]
      rfl

end Sys2Proof.Machine

namespace Sys2Proof.Machine

/-! ## The statements of a host program (30_encoding.md R96, R97) -/

section Statements
variable {s : State} {st : HostStmt} {rest : List HostStmt}

theorem hostMove_of_access {a : HostAccess} (hprog : s.program = st :: rest) (ha : stmtAccess st = some a) :
    hostMove s = hostAccess a (advance st rest (readValue a.offset s) s) := by
  simp [hostMove, hprog, ha]

theorem hostMove_of_no_access (hprog : s.program = st :: rest) (ha : stmtAccess st = none) :
    hostMove s = .next (advance st rest 0#32 s) := by
  simp [hostMove, hprog, ha]

theorem hostMove_rd {r : Reg} {name : String} (hprog : s.program = .rd r name :: rest) :
    hostMove s = .next (hostRead (offsetOf r) (bindName name (readValue (offsetOf r) s) { s with program := rest })) :=
  (hostMove_of_access hprog rfl).trans (hostAccess_readReg r _)

/-- R97: ACK writes 1 to the two flags of STATUS that a host can clear. -/
theorem writeStatus_ack (s : State) : writeStatus 0x0000000A#32 s = { s with done := false, dropped := false } := by
  simp [writeStatus]

theorem hostMove_ack (hprog : s.program = .ack :: rest) :
    hostMove s = .next { s with program := rest, done := false, dropped := false } := by
  rw [hostMove_of_access hprog rfl, hostAccess_writeRegAccess, writeReg, writeStatus_ack]
  rfl

/-- R64, R97: an LDN stores the node its word reads back as, and clears the validity flags. -/
theorem hostMove_loadNode {i : Fin 511} {n : Node} (hprog : s.program = st :: rest)
    (ha : stmtAccess st = some (writeRegAccess (.node i) n.toWord))
    (hadvance : ∀ v, advance st rest v s = { s with program := rest }) (hidle : s.busy = false) :
    hostMove s = .next { s with
      program := rest, node := s.node.set i.val n i.isLt, treeValid := false, tableValid := false } := by
  obtain ⟨-, hwrite⟩ :=
    hostAccess_write_storage (r := .node i) (v := n.toWord) (s := { s with program := rest }) rfl
  rw [hostMove_of_access hprog ha, hadvance, hwrite hidle, writeNode, ofWord_toWord]
  rfl

end Statements

/-- Settles O56. -/
theorem loadNodeWritesTheNode : Obligations.LoadNodeWritesTheNode := by
  refine fun s i rest hidle => ⟨fun l r hprog => ?_, fun x hprog => ?_⟩
  · exact hostMove_loadNode (n := .inner l r) hprog (by rw [toWord_inner]; rfl) (fun _ => rfl) hidle
  · exact hostMove_loadNode (n := .leaf x) hprog (by rw [toWord_leaf]; rfl) (fun _ => rfl) hidle

/-- Settles O58. -/
theorem programStatementsMakeTheirAccess : Obligations.ProgramStatementsMakeTheirAccess := by
  intro s rest
  refine ⟨fun r v hprog => ?wr, fun r name hprog => ?rd, fun i hprog => ?cmd, fun i hprog => ?run,
    fun x v hprog => ?ldw, fun hprog => ?srst, fun hprog => ?ack, fun name v hprog => ?expect,
    fun ts hprog => ?inTokens, fun ts hprog => ?outTokens⟩
  case rd =>
    exact ⟨readValue (offsetOf r) s, _, hostAccess_readReg r { s with program := rest }, rfl, hostMove_rd hprog⟩
  case ack => exact hostMove_ack hprog
  case expect =>
    exact ⟨s.bindings.lookup name == some v, hostMove_of_no_access hprog rfl, beq_iff_eq⟩
  case inTokens | outTokens => exact hostMove_of_no_access hprog rfl
  case wr | cmd | run | ldw | srst => exact hostMove_of_access hprog rfl

end Sys2Proof.Machine

namespace Sys2Proof.Machine

/-! ## A WAIT on a starved command (30_encoding.md R98, 20_memory.md R74) -/

theorem runSteps_of_step {s t : State} (h : step s = .next t) (n : Nat) : runSteps (n + 1) s = runSteps n t := by
  simp [runSteps, h]

section Starved
variable {s : State} {i : Instr}

theorem ownOutPut_of_outPutOk {tok : OutToken} {k : AfterOut} (h : OutPutOk s tok k i) : OwnOutPut i k := by
  cases i with
  | wbit b =>
    obtain ⟨rfl, -⟩ := h
    exact .bitWritten b
  | wclose =>
    cases k with
    | ended => exact .ended (.inr (.inr rfl))
    | aborted e info => exact .aborted (.inr (.inr rfl)) e info
    | _ => exact h.elim
  | encode =>
    obtain ⟨-, hout⟩ := h
    cases k with
    | codeBit x j => exact .codeBit x j
    | padBit => exact .padBit
    | ended => exact .ended (.inl rfl)
    | aborted e info => exact .aborted (.inl rfl) e info
    | _ => exact hout.elim
  | decode =>
    obtain ⟨-, hout⟩ := h
    cases k with
    | symbol => exact .symbol
    | ended => exact .ended (.inr (.inl rfl))
    | aborted e info => exact .aborted (.inr (.inl rfl)) e info
    | _ => exact hout.elim
  | _ => exact h.elim

theorem runs_of_starved (h : Starved s i) : ∃ p, Runs i p s := by
  obtain ⟨-, hrun, -⟩ | ⟨tok, k, -, hrun, -⟩ := h
  · exact ⟨_, hrun⟩
  · exact ⟨_, hrun⟩

theorem busy_of_starved (h : Starved s i) : s.busy = true := by
  obtain ⟨p, hrun⟩ := runs_of_starved h
  have hengine : s.engine = .run (encode i) p := hrun
  simp [busy_iff, hengine]

theorem exec_of_starved (h : Starved s i) : exec i s = .next s := by
  obtain ⟨hi, hrun, hsrc⟩ | ⟨tok, k, hout, hrun, hfull⟩ := h
  · exact exec_of_no_token hi hrun hsrc
  · exact exec_of_full (ownOutPut_of_outPutOk hout) hrun hfull

theorem engineStep_of_starved (h : Starved s i) : engineStep s = .next s := by
  obtain ⟨p, hrun⟩ := runs_of_starved h
  rw [engineStep_of_run hrun (decode_encode i), exec_of_starved h]

/-- The state after a WAIT's move that found BUSY = 1, with the agenda `later` still to come. -/
def afterPoll (s : State) (later : List Event) : State :=
  { s with
    agenda := later, reads := s.reads ++ [(0x0008#15, statusWord s)]
    bindings := ("t", statusWord s) :: s.bindings }

@[simp] theorem afterPoll_reads (s : State) (later : List Event) :
    (afterPoll s later).reads = s.reads ++ [(0x0008#15, statusWord s)] := rfl

@[simp] theorem statusWord_afterPoll (s : State) (later : List Event) :
    statusWord (afterPoll s later) = statusWord s := rfl

/-- A poll touches nothing that says whether a command is starved. -/
theorem starved_afterPoll (h : Starved s i) (later : List Event) : Starved (afterPoll s later) i := h

/-- R98: an engine move, which a starved command waits in, and a move of the program, which polls. -/
theorem runSteps_engine_poll {rest : List HostStmt} {later : List Event} (h : Starved s i)
    (hprog : s.program = .wait :: rest) (hag : s.agenda = .engine :: .hostStmt :: later) (n : Nat) :
    runSteps (n + 2) s = runSteps n (afterPoll s later) := by
  have hengine : step s = .next { s with agenda := .hostStmt :: later } :=
    (step_of_agenda_cons hag).trans (engineStep_of_starved (s := { s with agenda := .hostStmt :: later }) h)
  obtain ⟨hwait, -, -⟩ := waitEndsOnlyWhenNotBusy { s with agenda := later } rest hprog
  have hpoll : step { s with agenda := .hostStmt :: later } = .next (afterPoll s later) :=
    (step_of_agenda_cons rfl).trans (hwait (busy_of_starved h))
  rw [runSteps_of_step hengine, runSteps_of_step hpoll]

/-- R98: round by round, the command stays starved and each round adds one read. -/
theorem runSteps_wait_of_starved {rest : List HostStmt} (n : Nat) (h : Starved s i)
    (hprog : s.program = .wait :: rest)
    (hag : s.agenda = (List.replicate n [Event.engine, Event.hostStmt]).flatten) :
    ∃ t, runSteps (2 * n) s = .next t ∧ t.program = .wait :: rest ∧ t.busy = true ∧
      t.reads = s.reads ++ List.replicate n (0x0008#15, statusWord s) := by
  induction n generalizing s with
  | zero => exact ⟨s, rfl, hprog, busy_of_starved h, by simp⟩
  | succ n ih =>
    obtain ⟨t, hrun, hprog', hbusy, hreads⟩ := ih (starved_afterPoll h _) hprog rfl
    have hround : runSteps (2 * (n + 1)) s = .next t := (runSteps_engine_poll h hprog hag (2 * n)).trans hrun
    exact ⟨t, hround, hprog', hbusy, hreads.trans (by simp [List.replicate_succ])⟩

end Starved

/-- Settles O60. -/
theorem waitLoopsWhileStarved : Obligations.WaitLoopsWhileStarved := by
  intro s i rest n hstarved hprog
  have hstarved' : Starved { s with agenda := (List.replicate n [Event.engine, Event.hostStmt]).flatten } i := hstarved
  exact runSteps_wait_of_starved n hstarved' hprog rfl

end Sys2Proof.Machine

namespace Sys2Proof.Machine

/-! ## Node indices (R6) -/

theorem toNat_nodeIx {n : Nat} (h : n < 511) : (BitVec.ofNat 9 n).toNat = n := Nat.mod_eq_of_lt (by omega)

theorem ne_nil_of_toNat_le {x : NodeIx} (h : x.toNat ≤ 510) : x ≠ Config.nil := by
  rintro rfl
  simp [Config.nil] at h

theorem toNat_le_of_ne_nil {x : NodeIx} (h : x ≠ Config.nil) : x.toNat ≤ 510 := by
  simp only [Config.nil, ne_eq] at h
  bv_omega

/-! ## BUILD's loops and its step (40_tree_builder.md R110, R113) -/

/-- Settles O24. -/
theorem buildCompletes : Obligations.BuildCompletes := by
  intro s
  simp only [exec, execBuild]
  generalize buildTree s.weight s.builder = b
  exact ⟨_, rfl, rfl, rfl, rfl⟩

/-- R113: merge `k` of `n` writes node `n - 1 - k`. -/
theorem mergeDown_eq_foldl (n : Nat) (b : Builder) :
    mergeDown n b = (List.range n).foldl (fun c k => merge (n - 1 - k) c) b := by
  induction n generalizing b with
  | zero => rfl
  | succ n ih =>
    simp [mergeDown, ih, List.range_succ_eq_map, List.foldl_map, Nat.sub_sub, Nat.add_comm 1]

/-- Settles O57. -/
theorem buildMergesFrom254To0 : Obligations.BuildMergesFrom254To0 := by
  intro w b
  have hweight : ∀ n (h : n < 256), w[n]?.getD 0#32 = w[n] := fun n h => by simp [h]
  refine ⟨{ writeLeaves w 256 b with orph := firstOrphans }, rfl, fun n h => ?_, ?_, fun n h => ?_⟩
  · rw [← hweight n h]
    exact writeLeaves_leaf w b 256 n (le_refl _) h
  · exact mergeDown_eq_foldl 255 _
  · rw [← hweight n h]
    exact (buildTree_leaf w b n h).2

/-! ## SelectTwo and Remove (40_tree_builder.md R111, R112) -/

/-- R112: `p` is a position of least weight, and every position below it weighs more. -/
def IsFirstMin (l : List (Nat × Weight)) (p : Nat) : Prop :=
  ∃ w, (p, w) ∈ l ∧ ∀ x ∈ l, w ≤ x.2 ∧ (x.1 < p → w < x.2)

/-- R112: the scan in increasing position with a strict `<` keeps the first minimum. -/
theorem isFirstMin_scanMin (p : Nat) (w : Weight) (l : List (Nat × Weight))
    (hinc : ((p, w) :: l).Pairwise (fun x y => x.1 < y.1)) : IsFirstMin ((p, w) :: l) (scanMin p w l) := by
  induction l generalizing p w with
  | nil => exact ⟨w, by simp [scanMin], by simp [scanMin]⟩
  | cons x l ih =>
    obtain ⟨q, v⟩ := x
    obtain ⟨hp, hrest⟩ := List.pairwise_cons.mp hinc
    obtain ⟨hq, hl⟩ := List.pairwise_cons.mp hrest
    have hpq : p < q := hp (q, v) (by simp)
    by_cases hvw : v < w
    · obtain ⟨u, hu, hmin⟩ := ih q v hrest
      have huv : u ≤ v := (hmin (q, v) (by simp)).1
      simp only [scanMin, if_pos hvw]
      refine ⟨u, List.mem_cons_of_mem _ hu, fun x hx => ?_⟩
      obtain rfl | hx := List.mem_cons.mp hx
      · have huw : u < w := by bv_omega
        exact ⟨BitVec.le_of_lt huw, fun _ => huw⟩
      · exact hmin x hx
    · obtain ⟨u, hu, hmin⟩ := ih p w (List.pairwise_cons.mpr ⟨fun x hx => hp x (List.mem_cons_of_mem _ hx), hl⟩)
      simp only [scanMin, if_neg hvw]
      have huw : u ≤ w ∧ (p < scanMin p w l → u < w) := hmin (p, w) (by simp)
      refine ⟨u, ?_, fun x hx => ?_⟩
      · obtain h | h := List.mem_cons.mp hu
        · exact List.mem_cons.mpr (.inl h)
        · exact List.mem_cons_of_mem _ (List.mem_cons_of_mem _ h)
      · obtain rfl | hx := List.mem_cons.mp hx
        · exact huw
        obtain rfl | hx := List.mem_cons.mp hx
        · refine ⟨by bv_omega, fun hlt => ?_⟩
          have := huw.2 (by simp only at hlt; omega)
          bv_omega
        · exact hmin x (List.mem_cons_of_mem _ hx)

theorem isFirstMin_firstMin {l : List (Nat × Weight)} (hne : l ≠ []) (hinc : l.Pairwise (fun x y => x.1 < y.1)) :
    IsFirstMin l (firstMin l) := by
  cases l with
  | nil => exact absurd rfl hne
  | cons x l => exact isFirstMin_scanMin x.1 x.2 l hinc

/-- R112: position `p` stands among the candidates with the weight of its orphan. -/
theorem mem_candidates_iff (b : Builder) (p : Nat) (w : Weight) :
    (p, w) ∈ candidates b ↔ ∃ h : p < b.orph.length, weightAt b.nodew b.orph[p] = w := by
  simp [candidates, List.mem_zipIdx_iff_getElem?, List.getElem?_eq_some_iff]

/-- Positions rise along the candidates. -/
theorem candidates_increasing (b : Builder) : (candidates b).Pairwise (fun x y => x.1 < y.1) := by
  have hpos : (candidates b).map Prod.fst = List.range' 0 b.orph.length := by
    simp [candidates, Function.comp_def, ← List.zipIdx_map_snd]
  rw [← List.pairwise_map, hpos]
  exact List.pairwise_lt_range'

/-- R111: an entry removed by its position, in a list whose positions are counted from `k`. -/
theorem map_fst_filter_zipIdx_ne (l : List NodeIx) (k p : Nat) :
    ((l.zipIdx k).filter (fun x => x.2 != k + p)).map Prod.fst = l.eraseIdx p := by
  induction l generalizing k p with
  | nil => rfl
  | cons x l ih =>
    cases p with
    | zero =>
      have hall : (l.zipIdx (k + 1)).filter (fun y => y.2 != k) = l.zipIdx (k + 1) :=
        List.filter_eq_self.mpr fun y hy => bne_iff_ne.mpr (by have := List.le_snd_of_mem_zipIdx hy; omega)
      simp [hall]
    | succ p =>
      have hrest := ih (k + 1) p
      rw [Nat.add_right_comm, Nat.add_assoc] at hrest
      simp [hrest]

theorem map_fst_filter_zipIdx_ne_ne (l : List NodeIx) (k : Nat) {p q : Nat} (h : p < q) :
    ((l.zipIdx k).filter (fun x => x.2 != k + p && x.2 != k + q)).map Prod.fst = (l.eraseIdx q).eraseIdx p := by
  induction l generalizing k p q with
  | nil => rfl
  | cons x l ih =>
    obtain ⟨q, rfl⟩ : ∃ r, q = r + 1 := ⟨q - 1, by omega⟩
    cases p with
    | zero =>
      have hrest : (l.zipIdx (k + 1)).filter (fun y => y.2 != k && y.2 != k + (q + 1)) =
          (l.zipIdx (k + 1)).filter (fun y => y.2 != k + 1 + q) :=
        List.filter_congr fun y hy => by
          have := List.le_snd_of_mem_zipIdx hy
          rw [bne_iff_ne.mpr (by omega : y.2 ≠ k), Bool.true_and, Nat.add_assoc, Nat.add_comm 1]
      simp [hrest, map_fst_filter_zipIdx_ne]
    | succ p =>
      have hrest := ih (k + 1) (Nat.lt_of_succ_lt_succ h)
      simp only [Nat.add_assoc, Nat.add_comm 1] at hrest
      simp [hrest]

/-- R111: `Remove` keeps the entries at the other positions, in their order. -/
theorem removeTwo_eq_filter (l : List NodeIx) {p q : Nat} (h : p ≠ q) :
    removeTwo l p q = (l.zipIdx.filter (fun x => x.2 != p && x.2 != q)).map Prod.fst := by
  rcases Nat.lt_or_gt_of_ne h with hlt | hlt
  · simpa [removeTwo, Nat.max_eq_right hlt.le, Nat.min_eq_left hlt.le] using (map_fst_filter_zipIdx_ne_ne l 0 hlt).symm
  · have hswap := map_fst_filter_zipIdx_ne_ne l 0 hlt
    simp only [Nat.zero_add, Bool.and_comm (_ != q)] at hswap
    rw [hswap, removeTwo, Nat.max_eq_left hlt.le, Nat.min_eq_right hlt.le]

/-- A first minimum among some of the candidates is one among the weights of their orphans. -/
theorem weightAt_le_of_isFirstMin {b : Builder} {l : List (Nat × Weight)} {p q : Nat} (hmin : IsFirstMin l p)
    (hsub : l ⊆ candidates b) (hp : p < b.orph.length) (hq : q < b.orph.length)
    (hin : (q, weightAt b.nodew b.orph[q]) ∈ l) :
    weightAt b.nodew b.orph[p] ≤ weightAt b.nodew b.orph[q] ∧
      (q < p → weightAt b.nodew b.orph[p] < weightAt b.nodew b.orph[q]) := by
  obtain ⟨w, hmem, hall⟩ := hmin
  obtain ⟨_, rfl⟩ := (mem_candidates_iff b p w).mp (hsub hmem)
  exact hall _ hin

/-- R112: `SelectTwo` gives the first least position, and the first least of the others. -/
theorem isFirstMin_selectTwo {b : Builder} (h : 2 ≤ b.orph.length) :
    IsFirstMin (candidates b) (selectTwo (candidates b)).1 ∧
      IsFirstMin ((candidates b).filter (fun x => x.1 != (selectTwo (candidates b)).1)) (selectTwo (candidates b)).2 := by
  obtain ⟨hp, hq, hne⟩ := selectTwo_positions h
  obtain ⟨u, hu⟩ := exists_mem_candidates hp
  obtain ⟨v, hv⟩ := exists_mem_candidates hq
  refine ⟨isFirstMin_firstMin (List.ne_nil_of_mem hu) (candidates_increasing b),
    isFirstMin_firstMin ?_ ((candidates_increasing b).filter _)⟩
  exact List.ne_nil_of_mem (List.mem_filter.mpr ⟨hv, bne_iff_ne.mpr hne.symm⟩)

/-- Settles O25. -/
theorem mergeJoinsTheTwoLeast : Obligations.MergeJoinsTheTwoLeast := by
  intro b t h
  obtain ⟨hp, hq, hne⟩ := selectTwo_positions h
  obtain ⟨hmin, hmin'⟩ := isFirstMin_selectTwo h
  have hcand : ∀ r (hr : r < b.orph.length), (r, weightAt b.nodew b.orph[r]) ∈ candidates b :=
    fun r hr => (mem_candidates_iff b r _).mpr ⟨hr, rfl⟩
  refine ⟨_, _, hp, hq, hne,
    fun r hr => weightAt_le_of_isFirstMin hmin (List.Subset.refl _) hp hr (hcand r hr),
    fun r hr hrp => weightAt_le_of_isFirstMin hmin' (List.filter_subset_self _) hq hr
      (List.mem_filter.mpr ⟨hcand r hr, bne_iff_ne.mpr hrp⟩), ?_⟩
  rw [← removeTwo_eq_filter b.orph hne, merge, List.getD_eq_getElem _ _ hp, List.getD_eq_getElem _ _ hq, Node.inner]

end Sys2Proof.Machine

namespace Sys2Proof.Machine

/-! ## The tree check and CHECK (40_tree_builder.md R120, R121) -/

/-- R120: the branches of `nodeCond` test T1, T2 and T3 in this order. -/
theorem nodeCond_of_firstCond {i : Nat} {n : Node} {c : TreeCond} (h : firstCond i n c) : nodeCond i n = some c := by
  cases c with
  | rootLeaf => exact if_pos h
  | nilChild =>
    obtain ⟨⟨hint, hnil⟩, hroot⟩ := h
    have hT1 : ¬ (i = 0 ∧ n.internal = false) := hroot
    rw [nodeCond, if_neg hT1, if_pos hint, if_pos hnil]
  | childNotAbove =>
    obtain ⟨⟨hint, hle⟩, hnil, hroot⟩ := h
    have hT1 : ¬ (i = 0 ∧ n.internal = false) := hroot
    rw [nodeCond, if_neg hT1, if_pos hint, if_neg fun h => hnil ⟨hint, h⟩, if_pos hle]

theorem nodeCond_of_not_failsCond {i : Nat} {n : Node} (h : ∀ c, ¬ failsCond i n c) : nodeCond i n = none := by
  have hT1 : ¬ (i = 0 ∧ n.internal = false) := h .rootLeaf
  rw [nodeCond, if_neg hT1]
  by_cases hint : n.internal = true
  · rw [if_pos hint, if_neg fun hnil => h .nilChild ⟨hint, hnil⟩, if_neg fun hle => h .childNotAbove ⟨hint, hle⟩]
  · rw [if_neg hint]

/-- A node that fails a condition fails a first one. -/
theorem exists_firstCond {i : Nat} {n : Node} {c : TreeCond} (h : failsCond i n c) : ∃ d, firstCond i n d := by
  by_cases hroot : failsCond i n .rootLeaf
  · exact ⟨.rootLeaf, hroot⟩
  by_cases hnil : failsCond i n .nilChild
  · exact ⟨.nilChild, hnil, hroot⟩
  cases c with
  | rootLeaf => exact absurd h hroot
  | nilChild => exact absurd h hnil
  | childNotAbove => exact ⟨.childNotAbove, h, hnil, hroot⟩

theorem nodeCond_eq_none_iff (i : Nat) (n : Node) : nodeCond i n = none ↔ ∀ c, ¬ failsCond i n c := by
  refine ⟨fun h c hc => ?_, nodeCond_of_not_failsCond⟩
  obtain ⟨d, hd⟩ := exists_firstCond hc
  simp [nodeCond_of_firstCond hd] at h

theorem nodeCond_eq_some_iff (i : Nat) (n : Node) (c : TreeCond) : nodeCond i n = some c ↔ firstCond i n c := by
  refine ⟨fun h => ?_, nodeCond_of_firstCond⟩
  obtain ⟨d, hd⟩ : ∃ d, failsCond i n d := by
    by_contra hnone
    simp [nodeCond_of_not_failsCond (not_exists.mp hnone)] at h
  obtain ⟨d, hd⟩ := exists_firstCond hd
  obtain rfl : d = c := Option.some.inj ((nodeCond_of_firstCond hd).symm.trans h)
  exact hd

/-- R120: `TreeCheck()` passes exactly the well-formed trees. -/
theorem treeCheck_eq_none_iff (a : Vector Node 511) : treeCheck a = none ↔ WellFormedTree a :=
  (treeCheck_none a).trans (forall₂_congr fun i _ => nodeCond_eq_none_iff i _)

/-- R120: `TreeCheck()` finds the lowest failing node and the first condition it fails. -/
theorem treeCheck_eq_some_iff (a : Vector Node 511) (i : Nat) (c : TreeCond) :
    treeCheck a = some (i, c) ↔
      ∃ h : i < 511, firstCond i a[i] c ∧ ∀ j (hj : j < i) c', ¬ failsCond j a[j] c' := by
  simp only [treeCheck_some, nodeCond_eq_some_iff, nodeCond_eq_none_iff]

/-- R241: with a node index below `2 ^ 16`, the OR in ERRINFO is a sum. -/
theorem malformedInfo_eq (c : TreeCond) {i : Nat} (h : i < 511) :
    malformedInfo i c = BitVec.ofNat 32 (65536 * c.number + i) := by
  have hor : c.number <<< 16 ||| i = 65536 * c.number + i := by
    rw [← Nat.shiftLeft_add_eq_or_of_lt (by omega), Nat.shiftLeft_eq]
    omega
  rw [← hor, malformedInfo]
  apply BitVec.eq_of_toNat_eq
  simp [Nat.shiftLeft_eq]

/-- Settles O29: CHECK's two outcomes are those of `TreeCheck()`. -/
theorem checkDecidesWellFormedness : Obligations.CheckDecidesWellFormedness := by
  intro s
  refine ⟨fun hwf => ?_, fun i hi c hc hlow => ?_, fun hwf => ?_⟩
  · have hpass : treeCheck s.node = none := (treeCheck_eq_none_iff s.node).mpr hwf
    exact checkedTree_pass (i := .check) (k := fun s => .next (complete s)) hpass
  · have hfail : treeCheck s.node = some (i, c) := (treeCheck_eq_some_iff s.node i c).mpr ⟨hi, hc, hlow⟩
    have hexec : exec .check s = .next (latch .malformedTree (malformedInfo i c) (validity .checkFails s)) :=
      checkedTree_fail (i := .check) (k := fun s => .next (complete s)) hfail
    rw [hexec, malformedInfo_eq c hi]
    cases c <;> rfl
  · obtain ⟨⟨i, c⟩, hfail⟩ := Option.ne_none_iff_exists'.mp (mt (treeCheck_eq_none_iff s.node).mp hwf)
    obtain ⟨hi, hc, hlow⟩ := (treeCheck_eq_some_iff s.node i c).mp hfail
    exact ⟨i, hi, c, hc, hlow⟩

end Sys2Proof.Machine

namespace Sys2Proof.Machine

/-! ## Walks of a passing arena (40_tree_builder.md R122) -/

/-- R122: an internal node that passes the check has both children, above it. -/
theorem child_of_nodeCond {i : Nat} {n : Node} (hcond : nodeCond i n = none) (hint : n.internal = true) (e : Bool) :
    i < (n.child e).toNat ∧ (n.child e).toNat ≤ 510 := by
  have hcases := (nodeCond_none i n).mp hcond
  simp only [hint, Bool.true_eq_false, false_and, true_and, false_or] at hcases
  obtain ⟨hl, hr, hil, hir⟩ := hcases
  cases e with
  | false => exact ⟨hil, toNat_le_of_ne_nil hl⟩
  | true => exact ⟨hir, toNat_le_of_ne_nil hr⟩

theorem child_of_treeCheck {a : Vector Node 511} (hpass : treeCheck a = none) {i : NodeIx} {n : Node}
    (hn : nodeAt a i = some n) (hint : n.internal = true) (e : Bool) :
    i.toNat < (n.child e).toNat ∧ (n.child e).toNat ≤ 510 := by
  obtain ⟨hi, rfl⟩ := (nodeAt_eq_some a i n).mp hn
  exact child_of_nodeCond ((treeCheck_none a).mp hpass i.toNat hi) hint e

theorem walkTo_nil_eq_some_iff (a : Vector Node 511) (i j : NodeIx) :
    walkTo a i [] = some j ↔ (∃ n, nodeAt a i = some n) ∧ i = j := by
  simp [walkTo]

theorem walkTo_nil {a : Vector Node 511} {i : NodeIx} {n : Node} (hn : nodeAt a i = some n) :
    walkTo a i [] = some i := (walkTo_nil_eq_some_iff a i i).mpr ⟨⟨n, hn⟩, rfl⟩

theorem walkTo_cons_eq_some_iff (a : Vector Node 511) (i j : NodeIx) (e : Bool) (l : List Bool) :
    walkTo a i (e :: l) = some j ↔
      ∃ n, nodeAt a i = some n ∧ n.internal = true ∧ walkTo a (n.child e) l = some j := by
  cases hn : nodeAt a i with
  | none => simp [walkTo, hn]
  | some n => simp [walkTo, hn]

/-- A walk's last bit leads from an internal node to its child. -/
theorem walkTo_concat_eq_some_iff (a : Vector Node 511) (i c : NodeIx) (l : List Bool) (e : Bool) :
    walkTo a i (l ++ [e]) = some c ↔
      ∃ j n, walkTo a i l = some j ∧ nodeAt a j = some n ∧ n.internal = true ∧ n.child e = c ∧
        ∃ m, nodeAt a c = some m := by
  induction l generalizing i with
  | nil =>
    simp only [List.nil_append, walkTo_cons_eq_some_iff, walkTo_nil_eq_some_iff]
    constructor
    · rintro ⟨n, hn, hint, hm, rfl⟩
      exact ⟨i, n, ⟨⟨n, hn⟩, rfl⟩, hn, hint, rfl, hm⟩
    · rintro ⟨_, n, ⟨-, rfl⟩, hn, hint, rfl, hm⟩
      exact ⟨n, hn, hint, hm, rfl⟩
  | cons f l ih =>
    simp only [List.cons_append, walkTo_cons_eq_some_iff, ih]
    constructor
    · rintro ⟨n, hn, hint, j, m, hwalk, hlast⟩
      exact ⟨j, m, ⟨n, hn, hint, hwalk⟩, hlast⟩
    · rintro ⟨j, m, ⟨n, hn, hint, hwalk⟩, hlast⟩
      exact ⟨n, hn, hint, j, m, hwalk, hlast⟩

/-- R122: indices rise along every walk. -/
theorem add_length_le_of_walkTo {a : Vector Node 511} (hpass : treeCheck a = none) {i j : NodeIx} {l : List Bool}
    (h : walkTo a i l = some j) : i.toNat + l.length ≤ j.toNat := by
  induction l generalizing i with
  | nil =>
    obtain ⟨-, rfl⟩ := (walkTo_nil_eq_some_iff a i j).mp h
    simp
  | cons e l ih =>
    obtain ⟨n, hn, hint, hrest⟩ := (walkTo_cons_eq_some_iff a i j e l).mp h
    have hchild := child_of_treeCheck hpass hn hint e
    have := ih hrest
    simp only [List.length_cons]
    omega

/-- R122: a walk from node `i` has reached a leaf after at most `510 - i` bits. -/
theorem exists_walkTo_leaf {a : Vector Node 511} (hpass : treeCheck a = none) (l : List Bool) {i : NodeIx} {n : Node}
    (hn : nodeAt a i = some n) (hlen : 510 ≤ i.toNat + l.length) :
    ∃ k ≤ l.length, ∃ j m, walkTo a i (l.take k) = some j ∧ nodeAt a j = some m ∧ m.internal = false := by
  induction l generalizing i n with
  | nil =>
    cases hint : n.internal with
    | false => exact ⟨0, Nat.zero_le _, i, n, walkTo_nil hn, hn, hint⟩
    | true =>
      have := child_of_treeCheck hpass hn hint false
      simp only [List.length_nil] at hlen
      omega
  | cons e l ih =>
    cases hint : n.internal with
    | false => exact ⟨0, Nat.zero_le _, i, n, walkTo_nil hn, hn, hint⟩
    | true =>
      obtain ⟨habove, hle⟩ := child_of_treeCheck hpass hn hint e
      have hm : nodeAt a (n.child e) = some a[(n.child e).toNat] := (nodeAt_eq_some ..).mpr ⟨by omega, rfl⟩
      obtain ⟨k, hk, j, m, hwalk, hj, hleaf⟩ := ih hm (by simp only [List.length_cons] at hlen; omega)
      have hwalk' : walkTo a i ((e :: l).take (k + 1)) = some j :=
        (walkTo_cons_eq_some_iff ..).mpr ⟨n, hn, hint, hwalk⟩
      exact ⟨k + 1, Nat.succ_le_succ hk, j, m, hwalk', hj, hleaf⟩

/-- Settles O30. -/
theorem walksOfAPassingTreeEnd : Obligations.WalksOfAPassingTreeEnd := by
  intro a hpass
  refine ⟨fun i l j h => add_length_le_of_walkTo hpass h, fun l hl => ?_, fun i n e hn hint => ?_⟩
  · obtain ⟨n, hroot, -⟩ := root_internal_of_treeCheck hpass
    obtain ⟨k, hk, hleaf⟩ := exists_walkTo_leaf hpass l hroot (by omega)
    exact ⟨k, by omega, hleaf⟩
  · obtain ⟨habove, hle⟩ := child_of_treeCheck hpass hn hint e
    exact ⟨by omega, hle⟩

end Sys2Proof.Machine

namespace Sys2Proof.Machine

/-! ## One merge: the two orphans it joins and the node it writes (40_tree_builder.md R111, R112) -/

/-- R112: the orphan that becomes LEFT. -/
def Builder.lightest (b : Builder) : NodeIx := b.orph.getD (selectTwo (candidates b)).1 0#9

/-- R112: the orphan that becomes RIGHT. -/
def Builder.second (b : Builder) : NodeIx := b.orph.getD (selectTwo (candidates b)).2 0#9

/-- R111: the orphans a merge leaves. -/
def Builder.others (b : Builder) : List NodeIx :=
  removeTwo b.orph (selectTwo (candidates b)).1 (selectTwo (candidates b)).2

@[simp] theorem merge_orph (t : Nat) (b : Builder) : (merge t b).orph = b.others ++ [BitVec.ofNat 9 t] := rfl

theorem merge_node_self {t : Nat} (b : Builder) (h : t < 511) :
    (merge t b).node[t] = Node.inner b.lightest b.second :=
  Vector.getElem_setIfInBounds_self h

theorem merge_node_of_ne {t i : Nat} (b : Builder) (h : i < 511) (hne : i ≠ t) : (merge t b).node[i] = b.node[i] := by
  simpa [h] using merge_node_ne t b i hne

theorem weightAt_merge_self {t : Nat} (b : Builder) (h : t < 511) :
    weightAt (merge t b).nodew (BitVec.ofNat 9 t) = weightAt b.nodew b.lightest + weightAt b.nodew b.second := by
  have ht : (BitVec.ofNat 9 t).toNat = t := toNat_nodeIx (by omega)
  simp [weightAt, merge, ht, h, Builder.lightest, Builder.second]

theorem weightAt_merge_of_ne {t : Nat} (b : Builder) {x : NodeIx} (hne : x.toNat ≠ t) :
    weightAt (merge t b).nodew x = weightAt b.nodew x :=
  congrArg (·.getD 0#40) (merge_nodew_ne t b x.toNat hne)

/-- R111: `Remove` leaves the other orphans. -/
theorem removeTwo_perm {l : List NodeIx} {p q : Nat} (hp : p < l.length) (hq : q < l.length) (hne : p ≠ q) :
    (l[p] :: l[q] :: removeTwo l p q).Perm l := by
  wlog hlt : p < q generalizing p q
  · have hswap := this hq hp hne.symm (by omega)
    rw [removeTwo, max_comm, min_comm] at hswap
    exact (List.Perm.swap ..).trans hswap
  have hlen : p < (l.eraseIdx q).length := by rw [List.length_eraseIdx_of_lt hq]; omega
  have hinner := List.getElem_cons_eraseIdx_perm hlen
  rw [List.getElem_eraseIdx_of_lt _ hlt] at hinner
  rw [removeTwo, max_eq_right hlt.le, min_eq_left hlt.le]
  exact (List.Perm.swap ..).trans ((hinner.cons l[q]).trans (List.getElem_cons_eraseIdx_perm hq))

theorem Builder.orph_perm {b : Builder} (h : 2 ≤ b.orph.length) :
    (b.lightest :: b.second :: b.others).Perm b.orph := by
  obtain ⟨hp, hq, hne⟩ := selectTwo_positions h
  simpa [lightest, second, others, hp, hq] using removeTwo_perm hp hq hne

/-! ## The shape BUILD keeps (40_tree_builder.md R115, properties 1 to 3) -/

/-- Node `i`, one of those from `n` up that a merge has written, has `c` on its edge of bit `e`. -/
def Builder.Edge (b : Builder) (n i : Nat) (e : Bool) (c : NodeIx) : Prop :=
  n ≤ i ∧ ∃ h : i < 255, b.node[i].child e = c

/-- The loop invariant of R110 before the merge that writes node `n - 1`: every node from `n` up is either an orphan or
the child of one edge. -/
structure BuildsShape (n : Nat) (b : Builder) : Prop extends BuildsFrom n b where
  nodup : b.orph.Nodup
  internal : ∀ i (h : i < 511), n ≤ i → (b.node[i].internal = true ↔ i < 255)
  notOrphan : ∀ i e c, b.Edge n i e c → c ∉ b.orph
  oneEdge : ∀ i j e f c, b.Edge n i e c → b.Edge n j f c → i = j ∧ e = f
  covered : ∀ c : NodeIx, n ≤ c.toNat → c ≠ Config.nil → c ∈ b.orph ∨ ∃ i e, b.Edge n i e c

theorem eq_of_child_inner_eq {l r : NodeIx} (hne : l ≠ r) {e f : Bool}
    (h : (Node.inner l r).child e = (Node.inner l r).child f) : e = f := by
  cases e with
  | false =>
    cases f with
    | false => rfl
    | true => exact absurd h hne
  | true =>
    cases f with
    | false => exact absurd h.symm hne
    | true => rfl

/-- A merge adds the two edges of its node. -/
theorem edge_merge_iff {n : Nat} (b : Builder) (hn : n < 255) (i : Nat) (e : Bool) (c : NodeIx) :
    (merge n b).Edge n i e c ↔ (i = n ∧ (Node.inner b.lightest b.second).child e = c) ∨ b.Edge (n + 1) i e c := by
  by_cases hi : i = n
  · subst hi
    simp [Builder.Edge, hn, merge_node_self b (show i < 511 by omega)]
  · have hsame : ∀ h : i < 255, (merge n b).node[i] = b.node[i] := fun h => merge_node_of_ne b (by omega) hi
    simp only [Builder.Edge, hi, false_and, false_or]
    constructor
    · rintro ⟨hle, hlt, hc⟩
      exact ⟨by omega, hlt, by rw [← hsame hlt, hc]⟩
    · rintro ⟨hle, hlt, hc⟩
      exact ⟨by omega, hlt, by rw [hsame hlt, hc]⟩

theorem BuildsShape.edge_above {n : Nat} {b : Builder} (h : BuildsShape n b) {i : Nat} {e : Bool} {c : NodeIx}
    (he : b.Edge n i e c) : i < c.toNat ∧ c.toNat ≤ 510 := by
  obtain ⟨hni, hi, rfl⟩ := he
  exact child_of_nodeCond (h.passes i (by omega) hni) ((h.internal i (by omega) hni).mpr hi) e

section MergeKeepsShape

variable {n : Nat} {b : Builder} (h : BuildsShape (n + 1) b) (hn : n < 255)
include h hn

/-- The orphans are the two that a merge joins and the others. -/
theorem BuildsShape.mem_orph_iff (c : NodeIx) :
    c ∈ b.orph ↔ (∃ e, (Node.inner b.lightest b.second).child e = c) ∨ c ∈ b.others := by
  rw [← (b.orph_perm (by rw [h.length]; omega)).mem_iff]
  simp [Node.inner, Node.child, or_assoc, eq_comm]

theorem BuildsShape.lightest_mem : b.lightest ∈ b.orph := (h.mem_orph_iff hn _).mpr (.inl ⟨false, rfl⟩)

theorem BuildsShape.second_mem : b.second ∈ b.orph := (h.mem_orph_iff hn _).mpr (.inl ⟨true, rfl⟩)

/-- A merge joins two different orphans, and none of the others. -/
theorem BuildsShape.joined :
    b.lightest ≠ b.second ∧ b.others.Nodup ∧ ∀ e, (Node.inner b.lightest b.second).child e ∉ b.others := by
  have hperm := b.orph_perm (by rw [h.length]; omega)
  have hnodup : (b.lightest :: b.second :: b.others).Nodup := hperm.nodup_iff.mpr h.nodup
  simp only [List.nodup_cons, List.mem_cons, not_or] at hnodup
  obtain ⟨⟨hne, hl⟩, hr, hothers⟩ := hnodup
  exact ⟨hne, hothers, Bool.forall_bool.mpr ⟨hl, hr⟩⟩

/-- The node a merge writes was no orphan. -/
theorem BuildsShape.new_notin_orph : BitVec.ofNat 9 n ∉ b.orph := by
  intro hin
  have hlt := (h.orphan _ hin).1
  have htoNat : (BitVec.ofNat 9 n).toNat = n := toNat_nodeIx (by omega)
  omega

theorem BuildsShape.merge_nodup : (merge n b).orph.Nodup := by
  obtain ⟨-, hothers, -⟩ := h.joined hn
  rw [merge_orph, ← List.concat_eq_append]
  exact hothers.concat fun hin => h.new_notin_orph hn ((h.mem_orph_iff hn _).mpr (.inr hin))

theorem BuildsShape.merge_internal (i : Nat) (hi : i < 511) (hni : n ≤ i) :
    (merge n b).node[i].internal = true ↔ i < 255 := by
  by_cases hin : i = n
  · subst hin
    simp [merge_node_self b hi, Node.inner, hn]
  · rw [merge_node_of_ne b hi hin]
    exact h.internal i hi (by omega)

theorem BuildsShape.merge_notOrphan (i : Nat) (e : Bool) (c : NodeIx) (he : (merge n b).Edge n i e c) :
    c ∉ (merge n b).orph := by
  obtain ⟨-, -, hgone⟩ := h.joined hn
  rw [merge_orph, List.mem_append, List.mem_singleton, not_or]
  rcases (edge_merge_iff b hn i e c).mp he with ⟨-, rfl⟩ | he
  · exact ⟨hgone e, fun heq => h.new_notin_orph hn (heq ▸ (h.mem_orph_iff hn _).mpr (.inl ⟨e, rfl⟩))⟩
  · refine ⟨fun hin => h.notOrphan i e c he ((h.mem_orph_iff hn c).mpr (.inr hin)), fun heq => ?_⟩
    have habove := (h.edge_above he).1
    have hni := he.1
    bv_omega

theorem BuildsShape.merge_oneEdge (i j : Nat) (e f : Bool) (c : NodeIx) (he : (merge n b).Edge n i e c)
    (hf : (merge n b).Edge n j f c) : i = j ∧ e = f := by
  have hnew : ∀ e, (Node.inner b.lightest b.second).child e = c → c ∈ b.orph := fun e he =>
    (h.mem_orph_iff hn c).mpr (.inl ⟨e, he⟩)
  rcases (edge_merge_iff b hn i e c).mp he with ⟨rfl, hce⟩ | he <;>
    rcases (edge_merge_iff b hn j f c).mp hf with ⟨rfl, hcf⟩ | hf
  · obtain ⟨hne, -, -⟩ := h.joined hn
    exact ⟨rfl, eq_of_child_inner_eq hne (hce.trans hcf.symm)⟩
  · exact absurd (hnew e hce) (h.notOrphan j f c hf)
  · exact absurd (hnew f hcf) (h.notOrphan i e c he)
  · exact h.oneEdge i j e f c he hf

theorem BuildsShape.merge_covered (c : NodeIx) (hc : n ≤ c.toNat) (hnil : c ≠ Config.nil) :
    c ∈ (merge n b).orph ∨ ∃ i e, (merge n b).Edge n i e c := by
  by_cases hcn : c = BitVec.ofNat 9 n
  · exact .inl (by simp [hcn])
  · rcases h.covered c (by bv_omega) hnil with hin | ⟨i, e, he⟩
    · rcases (h.mem_orph_iff hn c).mp hin with ⟨e, he⟩ | hin
      · exact .inr ⟨n, e, (edge_merge_iff b hn n e c).mpr (.inl ⟨rfl, he⟩)⟩
      · exact .inl (by simp [hin])
    · exact .inr ⟨i, e, (edge_merge_iff b hn i e c).mpr (.inr he)⟩

theorem BuildsShape.merge : BuildsShape n (merge n b) where
  toBuildsFrom := h.toBuildsFrom.merge hn
  nodup := h.merge_nodup hn
  internal := h.merge_internal hn
  notOrphan := h.merge_notOrphan hn
  oneEdge := h.merge_oneEdge hn
  covered := h.merge_covered hn

end MergeKeepsShape

/-! ### BUILD's leaves and its loop -/

/-- R110: what BUILD starts its merges from. -/
def leaves (w : Vector Word 256) (b : Builder) : Builder := { writeLeaves w 256 b with orph := firstOrphans }

theorem buildTree_eq_mergeDown (w : Vector Word 256) (b : Builder) : buildTree w b = mergeDown 255 (leaves w b) := rfl

/-- The index of symbol `k`'s leaf. -/
theorem toNat_leaf {k : Nat} (hk : k < 256) : (BitVec.ofNat 9 (255 + k)).toNat = 255 + k :=
  toNat_nodeIx (by omega)

/-- A node from 255 up is the leaf of a symbol. -/
theorem exists_leaf {c : NodeIx} (hc : 255 ≤ c.toNat) (hnil : c ≠ Config.nil) :
    ∃ k < 256, c = BitVec.ofNat 9 (255 + k) := by
  have hle := toNat_le_of_ne_nil hnil
  refine ⟨c.toNat - 255, by omega, ?_⟩
  rw [Nat.add_sub_cancel' hc, BitVec.ofNat_toNat, BitVec.setWidth_eq]

theorem leaves_node (w : Vector Word 256) (b : Builder) {k : Nat} (hk : k < 256) :
    (leaves w b).node[255 + k] = Node.leaf (BitVec.ofNat 8 k) :=
  (Vector.getElem?_eq_some_iff.mp (writeLeaves_leaf w b 256 k (le_refl _) hk).1).2

theorem weightAt_leaves (w : Vector Word 256) (b : Builder) {k : Nat} (hk : k < 256) :
    weightAt (leaves w b).nodew (BitVec.ofNat 9 (255 + k)) = w[k].setWidth 40 := by
  have hleaf := (writeLeaves_leaf w b 256 k (le_refl _) hk).2
  rw [Vector.getElem?_eq_getElem hk] at hleaf
  simp [weightAt, leaves, toNat_leaf hk, hleaf]

theorem buildsShape_leaves (w : Vector Word 256) (b : Builder) : BuildsShape 255 (leaves w b) := by
  have hnoEdge : ∀ i e c, ¬ (leaves w b).Edge 255 i e c := fun i e c ⟨hle, hlt, _⟩ => by omega
  refine ⟨buildsFrom_leaves w b, ?_, fun i hi hle => ?_, fun i e c he => absurd he (hnoEdge i e c),
    fun i j e f c he => absurd he (hnoEdge i e c), fun c hc hnil => .inl ?_⟩
  · refine List.Nodup.map_on (fun k hk m hm heq => ?_) List.nodup_range
    have := congrArg BitVec.toNat heq
    rw [toNat_leaf (List.mem_range.mp hk), toNat_leaf (List.mem_range.mp hm)] at this
    omega
  · obtain ⟨k, rfl⟩ := Nat.exists_eq_add_of_le hle
    rw [leaves_node w b (by omega)]
    simp [Node.leaf]
  · obtain ⟨k, hk, rfl⟩ := exists_leaf hc hnil
    exact List.mem_map.mpr ⟨k, List.mem_range.mpr hk, rfl⟩

/-- R115: the root is no node's child, and so the one orphan left. -/
theorem BuildsShape.orph_eq_root {b : Builder} (h : BuildsShape 0 b) : b.orph = [Config.root] := by
  obtain ⟨x, hx⟩ := List.length_eq_one_iff.mp h.length
  rcases h.covered Config.root (Nat.zero_le _) (by decide) with hin | ⟨i, e, he⟩
  · rw [hx, List.mem_singleton] at hin
    rw [hx, hin]
  · exact absurd (h.edge_above he).1 (Nat.not_lt_zero i)

/-- R115: every node but the root has exactly one parent edge. -/
theorem BuildsShape.existsUnique_parent {b : Builder} (h : BuildsShape 0 b) {c : Nat} (hc : 1 ≤ c) (hle : c ≤ 510) :
    ∃! p : Fin 255 × Bool, (b.node[p.1.val].child p.2).toNat = c := by
  have htoNat : (BitVec.ofNat 9 c).toNat = c := toNat_nodeIx (by omega)
  have hedge : ∀ p : Fin 255 × Bool, (b.node[p.1.val].child p.2).toNat = c → b.Edge 0 p.1 p.2 (BitVec.ofNat 9 c) :=
    fun p hp => ⟨Nat.zero_le _, p.1.isLt, BitVec.eq_of_toNat_eq (hp.trans htoNat.symm)⟩
  rcases h.covered (BitVec.ofNat 9 c) (Nat.zero_le _) (ne_nil_of_toNat_le (by omega)) with hin | ⟨i, e, -, hi, he⟩
  · rw [h.orph_eq_root, List.mem_singleton] at hin
    rw [hin] at htoNat
    simp [Config.root] at htoNat
    omega
  · refine ⟨(⟨i, hi⟩, e), (congrArg BitVec.toNat he).trans htoNat, fun p hp => ?_⟩
    obtain ⟨hpi, hpe⟩ := h.oneEdge _ _ _ _ _ (hedge p hp) ⟨Nat.zero_le i, hi, he⟩
    exact Prod.ext (Fin.ext hpi) hpe

end Sys2Proof.Machine

namespace Sys2Proof.Machine

/-! ## BUILD's weights are exact sums (40_tree_builder.md R114, R115 property 4) -/

/-- The sum of the orphans' weights, which merges keep. -/
def orphanWeight (b : Builder) : Nat := (b.orph.map (fun x => (weightAt b.nodew x).toNat)).sum

/-- The sum of all 256 weights. -/
def totalWeight (w : Vector Word 256) : Nat := (w.toList.map BitVec.toNat).sum

/-- R114: no sum of weights overflows 40 bits. -/
theorem totalWeight_lt (w : Vector Word 256) : totalWeight w < 2 ^ 40 := by
  have hle : totalWeight w ≤ (w.toList.map BitVec.toNat).length • (2 ^ 32 - 1) :=
    List.sum_le_card_nsmul _ _ fun x hx => by
      obtain ⟨v, -, rfl⟩ := List.mem_map.mp hx
      exact Nat.le_pred_of_lt v.isLt
  simp only [List.length_map, Vector.length_toList, smul_eq_mul] at hle
  omega

theorem orphanWeight_leaves (w : Vector Word 256) (b : Builder) : orphanWeight (leaves w b) = totalWeight w := by
  refine congrArg List.sum (List.ext_getElem (by simp [leaves, firstOrphans]) fun k hk _ => ?_)
  have hk : k < 256 := by simpa [leaves, firstOrphans] using hk
  have hleaf := congrArg BitVec.toNat (weightAt_leaves w b hk)
  have hlt : w[k].toNat % 2 ^ 40 = w[k].toNat := Nat.mod_eq_of_lt (by omega)
  rw [BitVec.toNat_setWidth, hlt] at hleaf
  simpa [leaves, firstOrphans] using hleaf

theorem orphanWeight_eq_joined {b : Builder} (h : 2 ≤ b.orph.length) :
    orphanWeight b = (weightAt b.nodew b.lightest).toNat + (weightAt b.nodew b.second).toNat +
      (b.others.map (fun x => (weightAt b.nodew x).toNat)).sum := by
  rw [orphanWeight, ← ((b.orph_perm h).map _).sum_eq]
  simp [Nat.add_assoc]

theorem toNat_weightAt_merge_self {n : Nat} {b : Builder} (hn : n < 511) (h : 2 ≤ b.orph.length)
    (hlt : orphanWeight b < 2 ^ 40) :
    (weightAt (merge n b).nodew (BitVec.ofNat 9 n)).toNat =
      (weightAt b.nodew b.lightest).toNat + (weightAt b.nodew b.second).toNat := by
  have hsum := orphanWeight_eq_joined h
  rw [weightAt_merge_self b hn, BitVec.toNat_add_of_lt (by omega)]

theorem BuildsFrom.weightAt_merge {n : Nat} {b : Builder} (h : BuildsFrom (n + 1) b) {x : NodeIx} (hx : x ∈ b.orph) :
    weightAt (Machine.merge n b).nodew x = weightAt b.nodew x :=
  weightAt_merge_of_ne b (by have := (h.orphan x hx).1; omega)

theorem BuildsFrom.orphanWeight_merge {n : Nat} {b : Builder} (h : BuildsFrom (n + 1) b) (hn : n < 255)
    (hlt : orphanWeight b < 2 ^ 40) : orphanWeight (Machine.merge n b) = orphanWeight b := by
  have hlen : 2 ≤ b.orph.length := by rw [h.length]; omega
  have hothers : b.others.map (fun x => (weightAt (Machine.merge n b).nodew x).toNat) =
      b.others.map (fun x => (weightAt b.nodew x).toNat) :=
    List.map_congr_left fun x hx => congrArg BitVec.toNat (h.weightAt_merge (mem_of_mem_removeTwo hx))
  have hnew := toNat_weightAt_merge_self (show n < 511 by omega) hlen hlt
  rw [orphanWeight_eq_joined hlen, orphanWeight, merge_orph, List.map_append, List.sum_append, hothers, List.map_singleton,
    List.sum_singleton, hnew, Nat.add_comm]

/-- The loop invariant of R110 for the weights: the orphans weigh as much as all symbols, and every internal node from
`n` up as much as its children. -/
structure BuildsWeights (w : Vector Word 256) (n : Nat) (b : Builder) : Prop extends BuildsShape n b where
  total_eq : orphanWeight b = totalWeight w
  exact_sum : ∀ i (h : i < 255), n ≤ i → (weightAt b.nodew (BitVec.ofNat 9 i)).toNat =
    (weightAt b.nodew b.node[i].left).toNat + (weightAt b.nodew b.node[i].right).toNat

theorem BuildsWeights.orphanWeight_lt {w : Vector Word 256} {n : Nat} {b : Builder} (h : BuildsWeights w n b) :
    orphanWeight b < 2 ^ 40 := h.total_eq ▸ totalWeight_lt w

section MergeKeepsWeights

variable {w : Vector Word 256} {n : Nat} {b : Builder} (h : BuildsWeights w (n + 1) b) (hn : n < 255)
include h hn

/-- R114: the new node's weight is the exact sum. -/
theorem BuildsWeights.toNat_weightAt_new :
    (weightAt (merge n b).nodew (BitVec.ofNat 9 n)).toNat =
      (weightAt b.nodew b.lightest).toNat + (weightAt b.nodew b.second).toNat :=
  toNat_weightAt_merge_self (by omega) (by rw [h.length]; omega) h.orphanWeight_lt

theorem BuildsWeights.merge_exact_sum (i : Nat) (hi : i < 255) (hni : n ≤ i) :
    (weightAt (merge n b).nodew (BitVec.ofNat 9 i)).toNat =
      (weightAt (merge n b).nodew (merge n b).node[i].left).toNat +
        (weightAt (merge n b).nodew (merge n b).node[i].right).toNat := by
  by_cases hin : i = n
  · subst hin
    have hl := h.weightAt_merge (h.lightest_mem hn)
    have hr := h.weightAt_merge (h.second_mem hn)
    rw [h.toNat_weightAt_new hn, merge_node_self b (by omega)]
    simp only [Node.inner, hl, hr]
  · have hsame : ∀ x : NodeIx, n < x.toNat → weightAt (merge n b).nodew x = weightAt b.nodew x :=
      fun x hx => weightAt_merge_of_ne b (by omega)
    have htoNat : (BitVec.ofNat 9 i).toNat = i := toNat_nodeIx (by omega)
    have habove : ∀ e, n < (b.node[i].child e).toNat := fun e => by
      have := (h.edge_above ⟨(by omega : n + 1 ≤ i), hi, (rfl : b.node[i].child e = _)⟩).1
      omega
    rw [merge_node_of_ne b (by omega) hin, hsame _ (by omega), hsame b.node[i].left (habove false),
      hsame b.node[i].right (habove true)]
    exact h.exact_sum i hi (by omega)

theorem BuildsWeights.merge : BuildsWeights w n (merge n b) where
  toBuildsShape := h.toBuildsShape.merge hn
  total_eq := (h.orphanWeight_merge hn h.orphanWeight_lt).trans h.total_eq
  exact_sum := h.merge_exact_sum hn

end MergeKeepsWeights

theorem BuildsWeights.mergeDown {w : Vector Word 256} {n : Nat} {b : Builder} (h : BuildsWeights w n b) (hn : n ≤ 255) :
    BuildsWeights w 0 (mergeDown n b) := by
  induction n generalizing b with
  | zero => exact h
  | succ n ih => exact ih (h.merge (by omega)) (by omega)

theorem buildsWeights_leaves (w : Vector Word 256) (b : Builder) : BuildsWeights w 255 (leaves w b) :=
  ⟨buildsShape_leaves w b, orphanWeight_leaves w b, fun i hi hle => by omega⟩

theorem buildsWeights_buildTree (w : Vector Word 256) (b : Builder) : BuildsWeights w 0 (buildTree w b) := by
  rw [buildTree_eq_mergeDown]
  exact (buildsWeights_leaves w b).mergeDown (le_refl _)

theorem weightAt_ofNat (nw : Vector Weight 511) {i : Nat} (h : i < 511) : weightAt nw (BitVec.ofNat 9 i) = nw[i] := by
  have htoNat : (BitVec.ofNat 9 i).toNat = i := toNat_nodeIx (by omega)
  simp [weightAt, htoNat, h]

end Sys2Proof.Machine

namespace Sys2Proof.Machine

/-! ## One walk to every node (40_tree_builder.md R115 property 3) -/

theorem BuildsShape.treeCheck_node {b : Builder} (h : BuildsShape 0 b) : treeCheck b.node = none :=
  (treeCheck_none _).mpr fun i hi => h.passes i hi (Nat.zero_le i)

/-- A walk's last bit follows an edge of the built tree. -/
theorem BuildsShape.walkTo_concat_iff {b : Builder} (h : BuildsShape 0 b) (c : NodeIx) (l : List Bool) (e : Bool) :
    walkTo b.node Config.root (l ++ [e]) = some c ↔
      ∃ i, walkTo b.node Config.root l = some i ∧ b.Edge 0 i.toNat e c := by
  rw [walkTo_concat_eq_some_iff]
  constructor
  · rintro ⟨i, n, hwalk, hn, hint, hchild, -⟩
    obtain ⟨hi, rfl⟩ := (nodeAt_eq_some b.node i n).mp hn
    exact ⟨i, hwalk, Nat.zero_le _, (h.internal i.toNat hi (Nat.zero_le _)).mp hint, hchild⟩
  · rintro ⟨i, hwalk, hedge⟩
    have hc := (h.edge_above hedge).2
    obtain ⟨-, hi, hchild⟩ := hedge
    have hint := (h.internal i.toNat (by omega) (Nat.zero_le _)).mpr hi
    exact ⟨i, _, hwalk, (nodeAt_eq_some ..).mpr ⟨by omega, rfl⟩, hint, hchild,
      _, (nodeAt_eq_some ..).mpr ⟨by omega, rfl⟩⟩

/-- R115: as each node but the root has one parent edge, one walk leads from the root to each node. -/
theorem BuildsShape.existsUnique_walkTo {b : Builder} (h : BuildsShape 0 b) (c : NodeIx) (hnil : c ≠ Config.nil) :
    ∃! l : List Bool, walkTo b.node Config.root l = some c := by
  obtain ⟨m, hm⟩ : ∃ m, c.toNat = m := ⟨_, rfl⟩
  induction m using Nat.strong_induction_on generalizing c with
  | _ m ih =>
  obtain ⟨root, hroot, -⟩ := root_internal_of_treeCheck h.treeCheck_node
  rcases h.covered c (Nat.zero_le _) hnil with hin | ⟨i, e, he⟩
  · rw [h.orph_eq_root, List.mem_singleton] at hin
    subst hin
    refine ⟨[], walkTo_nil hroot, fun l hl => ?_⟩
    have := add_length_le_of_walkTo h.treeCheck_node hl
    exact List.eq_nil_of_length_eq_zero (by omega)
  · have habove := h.edge_above he
    have htoNat : (BitVec.ofNat 9 i).toNat = i := toNat_nodeIx (by omega)
    have hi : BitVec.ofNat 9 i ≠ Config.nil := ne_nil_of_toNat_le (by omega)
    obtain ⟨l, hl, hone⟩ := ih i (by omega) (BitVec.ofNat 9 i) hi htoNat
    refine ⟨l ++ [e], (h.walkTo_concat_iff c l e).mpr ⟨_, hl, htoNat.symm ▸ he⟩, fun l' hl' => ?_⟩
    rcases List.eq_nil_or_concat' l' with rfl | ⟨l', e', rfl⟩
    · obtain ⟨-, rfl⟩ := (walkTo_nil_eq_some_iff ..).mp hl'
      exact absurd habove.1 (Nat.not_lt_zero i)
    · obtain ⟨j, hj, hedge⟩ := (h.walkTo_concat_iff c l' e').mp hl'
      obtain ⟨hji, rfl⟩ := h.oneEdge _ _ _ _ _ hedge he
      obtain rfl : j = BitVec.ofNat 9 i := BitVec.eq_of_toNat_eq (hji.trans htoNat.symm)
      rw [hone l' hj]

/-- Settles O26. -/
theorem builtTreeIsWellFormed : Obligations.BuiltTreeIsWellFormed := by
  intro w b
  have hw := buildsWeights_buildTree w b
  have h := hw.toBuildsShape
  have hedge : ∀ i (hi : i < 255) e, (buildTree w b).Edge 0 i e ((buildTree w b).node[i].child e) :=
    fun i hi e => ⟨Nat.zero_le i, hi, rfl⟩
  refine ⟨(treeCheck_eq_none_iff _).mp h.treeCheck_node, fun i hi => h.internal i hi (Nat.zero_le i), fun x => ?_,
    fun i hi e => h.edge_above (hedge i hi e), fun c hc hle => h.existsUnique_parent hc hle,
    fun i hi e => Nat.ne_of_gt (Nat.zero_lt_of_lt (h.edge_above (hedge i hi e)).1), fun x => ?_, ?_, fun i hi => ?_⟩
  · have hleaf := (buildTree_leaf w b x.toNat x.isLt).1
    rw [BitVec.ofNat_toNat, BitVec.setWidth_eq] at hleaf
    rwa [nodeAt, leafIx, toNat_leaf x.isLt]
  · have htoNat : (leafIx x).toNat = 255 + x.toNat := toNat_leaf x.isLt
    exact h.existsUnique_walkTo (leafIx x) (ne_nil_of_toNat_le (by omega))
  · have htotal := hw.total_eq
    rw [orphanWeight, h.orph_eq_root, List.map_singleton, List.sum_singleton] at htotal
    rwa [← weightAt_ofNat]
  · rw [← weightAt_ofNat]
    exact hw.exact_sum i hi (Nat.zero_le i)

end Sys2Proof.Machine

namespace Sys2Proof.Machine

/-! ## BUILD from scaled weights (40_tree_builder.md R117) -/

/-- A candidate with `c` times the weight of another at the same position. -/
def ScaledBy (c : Nat) (x y : Nat × Weight) : Prop := y.1 = x.1 ∧ y.2.toNat = c * x.2.toNat

/-- R117: a positive factor changes no comparison of the scan. -/
theorem scanMin_of_scaledBy {c : Nat} (hc : 1 ≤ c) {l l' : List (Nat × Weight)} (hl : List.Forall₂ (ScaledBy c) l l')
    (p : Nat) {w w' : Weight} (hw : w'.toNat = c * w.toNat) : scanMin p w' l' = scanMin p w l := by
  induction hl generalizing p w w' with
  | nil => rfl
  | @cons x y l l' hxy hl ih =>
    obtain ⟨hpos, hweight⟩ := hxy
    have hlt : y.2 < w' ↔ x.2 < w := by
      rw [BitVec.lt_def, BitVec.lt_def, hw, hweight, Nat.mul_lt_mul_left hc]
    by_cases h : x.2 < w
    · simp only [scanMin, if_pos h, if_pos (hlt.mpr h), hpos]
      exact ih x.1 hweight
    · simp only [scanMin, if_neg h, if_neg (mt hlt.mp h)]
      exact ih p hw

theorem firstMin_of_scaledBy {c : Nat} (hc : 1 ≤ c) {l l' : List (Nat × Weight)}
    (hl : List.Forall₂ (ScaledBy c) l l') : firstMin l' = firstMin l := by
  cases hl with
  | nil => rfl
  | @cons x y l l' hxy hl =>
    obtain ⟨hpos, hweight⟩ := hxy
    simp only [firstMin, hpos]
    exact scanMin_of_scaledBy hc hl x.1 hweight

theorem selectTwo_of_scaledBy {c : Nat} (hc : 1 ≤ c) {l l' : List (Nat × Weight)}
    (hl : List.Forall₂ (ScaledBy c) l l') : selectTwo l' = selectTwo l := by
  have hrest : List.Forall₂ (ScaledBy c) (l.filter (fun x => x.1 != firstMin l))
      (l'.filter (fun x => x.1 != firstMin l)) :=
    List.rel_filter (fun x y hxy => by simp only [hxy.1]) hl
  rw [selectTwo, selectTwo, firstMin_of_scaledBy hc hl, firstMin_of_scaledBy hc hrest]

/-- Two runs of BUILD before the merge that writes node `n - 1`: the same orphans, the same nodes from `n` up, and `c`
times the weights. -/
structure ScaledFrom (c n : Nat) (b b' : Builder) : Prop where
  orph : b'.orph = b.orph
  node : ∀ i (h : i < 511), n ≤ i → b'.node[i] = b.node[i]
  weight : ∀ x : NodeIx, n ≤ x.toNat → (weightAt b'.nodew x).toNat = c * (weightAt b.nodew x).toNat

theorem ScaledFrom.selectTwo {c n : Nat} {b b' : Builder} (h : ScaledFrom c n b b') (hc : 1 ≤ c)
    (hb : BuildsFrom n b) : selectTwo (candidates b') = selectTwo (candidates b) := by
  refine selectTwo_of_scaledBy hc ?_
  rw [candidates, candidates, h.orph, List.forall₂_map_left_iff, List.forall₂_map_right_iff, List.forall₂_same]
  exact fun x hx => ⟨rfl, h.weight x.1 (hb.orphan x.1 (List.fst_mem_of_mem_zipIdx hx)).1⟩

section MergeKeepsScale

variable {c n : Nat} {w w' : Vector Word 256} {b b' : Builder}

theorem ScaledFrom.merge (h : ScaledFrom c (n + 1) b b') (hc : 1 ≤ c) (hn : n < 255)
    (hb : BuildsWeights w (n + 1) b) (hb' : BuildsWeights w' (n + 1) b') :
    ScaledFrom c n (merge n b) (merge n b') := by
  have hsel := h.selectTwo hc hb.toBuildsFrom
  have hl : b'.lightest = b.lightest := by rw [Builder.lightest, Builder.lightest, hsel, h.orph]
  have hr : b'.second = b.second := by rw [Builder.second, Builder.second, hsel, h.orph]
  have ho : b'.others = b.others := by rw [Builder.others, Builder.others, hsel, h.orph]
  refine ⟨by rw [merge_orph, merge_orph, ho], fun i hi hni => ?_, fun x hx => ?_⟩
  · by_cases hin : i = n
    · subst hin
      rw [merge_node_self b hi, merge_node_self b' hi, hl, hr]
    · rw [merge_node_of_ne b hi hin, merge_node_of_ne b' hi hin]
      exact h.node i hi (by omega)
  · by_cases hxn : x.toNat = n
    · obtain rfl : x = BitVec.ofNat 9 n := by rw [← hxn, BitVec.ofNat_toNat, BitVec.setWidth_eq]
      have hwl := h.weight b.lightest (hb.orphan _ (hb.lightest_mem hn)).1
      have hwr := h.weight b.second (hb.orphan _ (hb.second_mem hn)).1
      rw [hb.toNat_weightAt_new hn, hb'.toNat_weightAt_new hn, hl, hr, hwl, hwr, Nat.mul_add]
    · rw [weightAt_merge_of_ne b hxn, weightAt_merge_of_ne b' hxn]
      exact h.weight x (by omega)

theorem ScaledFrom.mergeDown (h : ScaledFrom c n b b') (hc : 1 ≤ c) (hn : n ≤ 255) (hb : BuildsWeights w n b)
    (hb' : BuildsWeights w' n b') : ScaledFrom c 0 (mergeDown n b) (mergeDown n b') := by
  induction n generalizing b b' with
  | zero => exact h
  | succ n ih =>
    have hlt : n < 255 := by omega
    exact ih (h.merge hc hlt hb hb') hlt.le (hb.merge hlt) (hb'.merge hlt)

end MergeKeepsScale

theorem scaledFrom_leaves {c : Nat} {w w' : Vector Word 256} (hw : ∀ i (h : i < 256), w'[i].toNat = c * w[i].toNat)
    (b b' : Builder) : ScaledFrom c 255 (leaves w b) (leaves w' b') := by
  refine ⟨rfl, fun i hi hle => ?_, fun x hx => ?_⟩
  · obtain ⟨k, rfl⟩ := Nat.exists_eq_add_of_le hle
    rw [leaves_node w b (by omega), leaves_node w' b' (by omega)]
  · by_cases hnil : x = Config.nil
    · subst hnil
      simp [weightAt, Config.nil]
    · obtain ⟨k, hk, rfl⟩ := exists_leaf hx hnil
      have hext : ∀ v : Word, (v.setWidth 40).toNat = v.toNat := fun v => BitVec.toNat_setWidth_of_le (by omega)
      rw [weightAt_leaves w b hk, weightAt_leaves w' b' hk, hext, hext, hw k hk]

/-- R117: from `c` times the weights, BUILD gives the same tree with `c` times the node weights. -/
theorem scaledFrom_buildTree {c : Nat} (hc : 1 ≤ c) {w w' : Vector Word 256}
    (hw : ∀ i (h : i < 256), w'[i].toNat = c * w[i].toNat) (b b' : Builder) :
    ScaledFrom c 0 (buildTree w b) (buildTree w' b') := by
  rw [buildTree_eq_mergeDown, buildTree_eq_mergeDown]
  exact (scaledFrom_leaves hw b b').mergeDown hc (le_refl _) (buildsWeights_leaves w b) (buildsWeights_leaves w' b')

/-- Settles O27: the factor 1, from two former arenas. -/
theorem buildDependsOnWeightsAlone : Obligations.BuildDependsOnWeightsAlone := by
  intro w b b'
  have h : ScaledFrom 1 0 (buildTree w b) (buildTree w b') :=
    scaledFrom_buildTree (le_refl 1) (fun _ _ => (Nat.one_mul _).symm) b b'
  have hnode : (buildTree w b).node = (buildTree w b').node :=
    Vector.ext fun i hi => (h.node i hi (Nat.zero_le i)).symm
  have hnodew : (buildTree w b).nodew = (buildTree w b').nodew := Vector.ext fun i hi => by
    have hweight := h.weight (BitVec.ofNat 9 i) (Nat.zero_le _)
    rw [weightAt_ofNat _ hi, weightAt_ofNat _ hi, Nat.one_mul] at hweight
    exact (BitVec.eq_of_toNat_eq hweight).symm
  exact Builder.mk.injEq .. ▸ ⟨hnode, hnodew, h.orph.symm⟩

/-- Settles O28. -/
theorem buildIgnoresScale : Obligations.BuildIgnoresScale := by
  intro w w' b c hc hw
  exact Vector.ext fun i hi => (scaledFrom_buildTree hc hw b b).node i hi (Nat.zero_le i)

end Sys2Proof.Machine

namespace Sys2Proof.Machine

/-! ## The highest index below a bound -/

/-- The highest index below `n` that `p` holds of. -/
def lastBelow (p : Nat → Bool) (n : Nat) : Option Nat := ((List.range n).filter p).getLast?

theorem lastBelow_succ (p : Nat → Bool) (n : Nat) :
    lastBelow p (n + 1) = if p n = true then some n else lastBelow p n := by
  cases h : p n <;> simp [lastBelow, List.range_succ, h]

theorem lastBelow_eq_some {p : Nat → Bool} {n i : Nat} (h : lastBelow p n = some i) : i < n ∧ p i = true := by
  simpa using List.mem_filter.mp (List.mem_of_getLast? h)

theorem lastBelow_eq_none_iff (p : Nat → Bool) (n : Nat) : lastBelow p n = none ↔ ∀ i < n, p i = false := by
  simp [lastBelow]

/-- A bound above every index that `p` holds of may be raised. -/
theorem lastBelow_eq_of_le {p : Nat → Bool} {m n : Nat} (hmn : m ≤ n) (h : ∀ i, m ≤ i → p i = false) :
    lastBelow p n = lastBelow p m := by
  induction n, hmn using Nat.le_induction with
  | base => rfl
  | succ n hmn ih => rw [lastBelow_succ, h n hmn, if_neg Bool.false_ne_true, ih]

theorem lastBelow_eq_some_of_unique {p : Nat → Bool} {m n : Nat} (hmn : m < n) (h : ∀ i, p i = true ↔ i = m) :
    lastBelow p n = some m := by
  rw [lastBelow_eq_of_le hmn fun i hi => Bool.eq_false_iff.mpr fun hp => by have := (h i).mp hp; omega,
    lastBelow_succ, if_pos ((h m).mpr rfl)]

/-! ## Parents and paths (41_code_extractor.md R142, R143) -/

theorem isParent_iff (a : Vector Node 511) (i c : Nat) :
    isParent a i c = true ↔ ∃ h : i < 511, a[i].internal = true ∧ ∃ e, (a[i].child e).toNat = c := by
  by_cases hi : i < 511
  · simp [isParent, hi, Node.child]
  · simp [isParent, hi]

theorem child_edgeBit {a : Vector Node 511} {i c : Nat} (h : i < 511) (hp : isParent a i c = true) :
    (a[i].child (edgeBit a i c)).toNat = c := by
  by_cases hr : a[i].right.toNat = c
  · simp [edgeBit, h, hr, Node.child]
  · obtain ⟨_, _, e, he⟩ := (isParent_iff a i c).mp hp
    cases e with
    | false => simpa [edgeBit, h, hr, Node.child] using he
    | true => exact absurd he hr

/-- R142: on a passing arena every parent stands below its child. -/
theorem lt_of_isParent {a : Vector Node 511} (hpass : treeCheck a = none) {i c : Nat} (h : isParent a i c = true) :
    i < c := by
  obtain ⟨hi, hint, e, rfl⟩ := (isParent_iff a i c).mp h
  exact (child_of_nodeCond ((treeCheck_none a).mp hpass i hi) hint e).1

theorem isParent_eq_false_of_le {a : Vector Node 511} (hpass : treeCheck a = none) {i c : Nat} (h : c ≤ i) :
    isParent a i c = false :=
  Bool.eq_false_iff.mpr fun hp => by have := lt_of_isParent hpass hp; omega

/-- The path to node `c` whose last edge comes from node `i`. -/
def pathVia (a : Vector Node 511) (c i : Nat) : List Bool := nodePath a i ++ [edgeBit a i c]

/-- The path to node `c` whose last edge comes from its highest-index parent below `n`: what ACC and DEPTH hold once
the nodes below `n` are processed (R143). -/
def pathBelow (a : Vector Node 511) (n c : Nat) : List Bool :=
  (lastBelow (fun i => isParent a i c) n).elim [] (pathVia a c)

theorem pathBelow_succ (a : Vector Node 511) (n c : Nat) :
    pathBelow a (n + 1) c = if isParent a n c = true then pathVia a c n else pathBelow a n c := by
  rw [pathBelow, lastBelow_succ]
  split <;> rfl

theorem pathUpTo_succ (a : Vector Node 511) (n c : Nat) :
    pathUpTo a (n + 1) c = (lastParent a c).elim [] (fun i => pathUpTo a n i ++ [edgeBit a i c]) := rfl

/-- Indices rise along a path (R142), so a path to node `c` has no more than `c` edges. -/
theorem pathUpTo_succ_of_le {a : Vector Node 511} (hpass : treeCheck a = none) {n c : Nat} (h : c ≤ n) :
    pathUpTo a (n + 1) c = pathUpTo a n c := by
  induction n generalizing c with
  | zero =>
    have hroot : lastParent a c = none :=
      (lastBelow_eq_none_iff _ 511).mpr fun i _ => isParent_eq_false_of_le hpass (by omega)
    rw [pathUpTo_succ, hroot, Option.elim_none, pathUpTo]
  | succ n ih =>
    rw [pathUpTo_succ, pathUpTo_succ a n]
    cases hi : lastParent a c with
    | none => rw [Option.elim_none, Option.elim_none]
    | some i =>
      have hlt := lt_of_isParent hpass (lastBelow_eq_some hi).2
      rw [Option.elim_some, Option.elim_some, ih (by omega)]

/-- R142: every parent of node `c` stands below it, so its path is final once the nodes below it are processed. -/
theorem nodePath_eq_pathBelow {a : Vector Node 511} (hpass : treeCheck a = none) {n c : Nat} (hc : c ≤ n)
    (hn : n ≤ 511) : nodePath a c = pathBelow a n c := by
  have hlast : lastBelow (fun i => isParent a i c) n = lastParent a c :=
    (lastBelow_eq_of_le hn fun i hi => isParent_eq_false_of_le hpass (by omega)).symm
  rw [pathBelow, hlast, nodePath, pathUpTo_succ a 510]
  cases hi : lastParent a c with
  | none => rw [Option.elim_none, Option.elim_none]
  | some i =>
    have hlt := (lastBelow_eq_some hi).1
    rw [Option.elim_some, Option.elim_some, pathVia, nodePath, pathUpTo_succ_of_le hpass (n := 510) (by omega)]

/-! ## The partial codes EXTRACT holds (41_code_extractor.md R143, R144) -/

/-- A length and a stored code hold the bits `l`, with zeros after them. -/
def CodeHolds (d : Nat) (c : Code) (l : List Bool) : Prop := d = l.length ∧ ∀ j, codeBit c j = l.getD j false

theorem tableHolds_iff (len : Vector Byte 256) (code : Vector Code 256) (x : Byte) (l : List Bool) :
    TableHolds len code x l ↔ CodeHolds (lenAt len x) (codeAt code x) l := Iff.rfl

theorem codeHolds_nil : CodeHolds 0 0#256 [] := ⟨rfl, fun j => by simp⟩

/-- R143: one more bit at the position of the depth. -/
theorem CodeHolds.concat {d : Nat} {c : Code} {l : List Bool} (h : CodeHolds d c l) (hd : d < 256) (b : Bool) :
    CodeHolds (d + 1) (setMsb c d b) (l ++ [b]) := by
  obtain ⟨rfl, hbits⟩ := h
  refine ⟨by simp, fun j => ?_⟩
  rw [codeBit_setMsb c _ b j hd, hbits]
  rcases Nat.lt_trichotomy j l.length with hj | rfl | hj
  · rw [if_neg (by omega), List.getD_append _ _ _ _ hj]
  · simp
  · rw [if_neg (by omega), List.getD_eq_default _ _ hj.le, List.getD_eq_default _ _ (by simpa using hj)]

theorem codeString_eq_of_tableHolds {len : Vector Byte 256} {code : Vector Code 256} {x : Byte} {l : List Bool}
    (h : TableHolds len code x l) : codeString len code x = l := by
  obtain ⟨hlen, hbits⟩ := h
  refine List.ext_getElem (by simp [codeString, hlen]) fun j _ hj => ?_
  simp [codeString, hbits, hj]

/-! ## One node of the pass (41_code_extractor.md R142 to R144) -/

/-- R143: what the pass does at an internal node that does not overflow. -/
def pushChildren (i : Nat) (n : Node) (x : Extractor) : Extractor :=
  pushChild i (depthAt x i) n.right true (pushChild i (depthAt x i) n.left false x)

theorem extractFrom_internal {i : Nat} {n : Node} (rest : List Node) {x : Extractor} (hint : n.internal = true)
    (hd : depthAt x i ≠ 255) : extractFrom i (n :: rest) x = extractFrom (i + 1) rest (pushChildren i n x) := by
  simp [extractFrom, hint, hd, Config.maxCodeLen, pushChildren]

theorem extractFrom_overflow {i : Nat} {n : Node} (rest : List Node) {x : Extractor} (hint : n.internal = true)
    (hd : depthAt x i = 255) : extractFrom i (n :: rest) x = .error i := by
  simp [extractFrom, hint, hd, Config.maxCodeLen]

theorem extractFrom_leaf {i : Nat} {n : Node} (rest : List Node) {x : Extractor} (hleaf : n.internal = false) :
    extractFrom i (n :: rest) x = extractFrom (i + 1) rest (recordLeaf i n.symbol x) := by
  simp [extractFrom, hleaf]

/-- R143: a node's children get its partial code with their edge's bit, the right edge's last. -/
theorem scratch_pushChildren {a : Vector Node 511} (hpass : treeCheck a = none) {i c : Nat} (hi : i < 511)
    (hc : c < 511) (hint : a[i].internal = true) {x : Extractor} (hd : depthAt x i < 255) :
    depthAt (pushChildren i a[i] x) c = (if isParent a i c = true then depthAt x i + 1 else depthAt x c) ∧
      accAt (pushChildren i a[i] x) c =
        (if isParent a i c = true then setMsb (accAt x i) (depthAt x i) (edgeBit a i c) else accAt x c) := by
  have hleft : a[i].left.toNat ≠ i := (child_of_nodeCond ((treeCheck_none a).mp hpass i hi) hint false).1.ne'
  have hacc : accAt (pushChild i (depthAt x i) a[i].left false x) i = accAt x i := by
    rw [accAt_pushChild, if_neg fun h => hleft h.1]
  rw [pushChildren, depthAt_pushChild _ _ _ _ _ _ hd, depthAt_pushChild _ _ _ _ _ _ hd, accAt_pushChild, hacc,
    accAt_pushChild]
  by_cases hr : a[i].right.toNat = c
  · simp [isParent, edgeBit, hi, hc, hint, hr]
  · have hbit : edgeBit a i c = false := by simp [edgeBit, hi, beq_eq_false_iff_ne.mpr hr]
    by_cases hl : a[i].left.toNat = c <;> simp [isParent, hi, hc, hint, hr, hl, hbit]

theorem CodeHolds.pushChildren {a : Vector Node 511} (hpass : treeCheck a = none) {i c : Nat} (hi : i < 511)
    (hc : c < 511) (hint : a[i].internal = true) {x : Extractor} (hd : depthAt x i < 255)
    (hnode : CodeHolds (depthAt x i) (accAt x i) (nodePath a i))
    (h : CodeHolds (depthAt x c) (accAt x c) (pathBelow a i c)) :
    CodeHolds (depthAt (pushChildren i a[i] x) c) (accAt (pushChildren i a[i] x) c) (pathBelow a (i + 1) c) := by
  obtain ⟨hdepth, hacc⟩ := scratch_pushChildren hpass hi hc hint hd
  rw [hdepth, hacc, pathBelow_succ]
  by_cases hp : isParent a i c = true
  · simp only [if_pos hp]
    exact hnode.concat (by omega) _
  · simpa only [if_neg hp] using h

/-- R144: a leaf writes its own symbol's entry. -/
theorem tableHolds_recordLeaf (i : Nat) (s x : Byte) (e : Extractor) (l : List Bool) :
    TableHolds (recordLeaf i s e).len (recordLeaf i s e).code x l ↔
      if s = x then CodeHolds (depthAt e i) (accAt e i) l else TableHolds e.len e.code x l := by
  have hlen : lenAt (recordLeaf i s e).len x = if s = x then depthAt e i else lenAt e.len x := by
    by_cases h : s = x
    · simp [lenAt, recordLeaf, h, depthAt]
    · have hne : s.toNat ≠ x.toNat := fun heq => h (BitVec.eq_of_toNat_eq heq)
      simp [lenAt, recordLeaf, h, hne]
  have hcode : codeAt (recordLeaf i s e).code x = if s = x then accAt e i else codeAt e.code x := by
    by_cases h : s = x
    · simp [codeAt, recordLeaf, h]
    · have hne : s.toNat ≠ x.toNat := fun heq => h (BitVec.eq_of_toNat_eq heq)
      simp [codeAt, recordLeaf, h, hne]
  rw [tableHolds_iff, tableHolds_iff, hlen, hcode]
  split <;> rfl

end Sys2Proof.Machine

namespace Sys2Proof.Machine

/-! ## The pass (41_code_extractor.md R140, R142) -/

/-- Node `i` is the leaf of symbol `x`. -/
def isLeafOf (a : Vector Node 511) (x : Byte) (i : Nat) : Bool :=
  match a[i]? with
  | none => false
  | some n => !n.internal && n.symbol == x

theorem lastLeaf_eq_lastBelow (a : Vector Node 511) (x : Byte) : lastLeaf a x = lastBelow (isLeafOf a x) 511 := rfl

theorem isLeafOf_iff (a : Vector Node 511) (x : Byte) (i : Nat) :
    isLeafOf a x i = true ↔ ∃ h : i < 511, a[i].internal = false ∧ a[i].symbol = x := by
  by_cases hi : i < 511 <;> simp [isLeafOf, hi]

/-- The path to the highest-index leaf of symbol `x` below `n`: the entry of `x` once the nodes below `n` are processed
(R144). -/
def entryBelow (a : Vector Node 511) (n : Nat) (x : Byte) : List Bool :=
  ((lastBelow (isLeafOf a x) n).map (nodePath a)).getD []

theorem entryBelow_succ (a : Vector Node 511) (n : Nat) (x : Byte) :
    entryBelow a (n + 1) x = if isLeafOf a x n = true then nodePath a n else entryBelow a n x := by
  rw [entryBelow, lastBelow_succ]
  split
  · rw [Option.map_some, Option.getD_some]
  · rw [entryBelow]

/-- What the pass holds once the nodes below `n` are processed. -/
structure ExtractedBelow (a : Vector Node 511) (n : Nat) (x : Extractor) : Prop where
  scratch : ∀ c < 511, CodeHolds (depthAt x c) (accAt x c) (pathBelow a n c)
  table : ∀ s : Byte, TableHolds x.len x.code s (entryBelow a n s)

/-- R146: the pass stops at node `i`, internal and at depth 255. -/
def Overflows (a : Vector Node 511) (i : Nat) : Prop :=
  ∃ h : i < 511, a[i].internal = true ∧ (nodePath a i).length = 255

/-- R141: every path and every entry starts empty. -/
theorem extractedBelow_zero (a : Vector Node 511) : ExtractedBelow a 0 clearedExtractor where
  scratch c hc := by
    have hcleared : depthAt clearedExtractor c = 0 ∧ accAt clearedExtractor c = 0#256 := by
      simp [depthAt, accAt, clearedExtractor, hc]
    rw [hcleared.1, hcleared.2]
    exact codeHolds_nil
  table s := by
    have hcleared : lenAt clearedExtractor.len s = 0 ∧ codeAt clearedExtractor.code s = 0#256 := by
      simp [lenAt, codeAt, clearedExtractor]
    rw [tableHolds_iff, hcleared.1, hcleared.2]
    exact codeHolds_nil

section Pass

variable {a : Vector Node 511} (hpass : treeCheck a = none) {n : Nat} (hn : n < 511) {x : Extractor}
  (h : ExtractedBelow a n x)
include hpass hn h

/-- R142: a node's own scratch is final when it is processed. -/
theorem ExtractedBelow.own_scratch : CodeHolds (depthAt x n) (accAt x n) (nodePath a n) := by
  rw [nodePath_eq_pathBelow hpass (le_refl n) hn.le]
  exact h.scratch n hn

theorem ExtractedBelow.pushChildren (hint : a[n].internal = true) (hd : depthAt x n ≠ 255) :
    ExtractedBelow a (n + 1) (pushChildren n a[n] x) where
  scratch c hc := by
    have hlt : depthAt x n < 255 := by have := depthAt_lt x n; omega
    exact CodeHolds.pushChildren hpass hn hc hint hlt (h.own_scratch hpass hn) (h.scratch c hc)
  table s := by
    have hleaf : ¬ isLeafOf a s n = true := by simp [isLeafOf_iff, hint]
    rw [entryBelow_succ, if_neg hleaf]
    exact h.table s

theorem ExtractedBelow.recordLeaf (hleaf : a[n].internal = false) :
    ExtractedBelow a (n + 1) (recordLeaf n a[n].symbol x) where
  scratch c hc := by
    have hparent : ¬ isParent a n c = true := by simp [isParent_iff, hleaf]
    rw [pathBelow_succ, if_neg hparent]
    exact h.scratch c hc
  table s := by
    rw [tableHolds_recordLeaf, entryBelow_succ]
    by_cases hs : a[n].symbol = s
    · rw [if_pos hs, if_pos ((isLeafOf_iff a s n).mpr ⟨hn, hleaf, hs⟩)]
      exact h.own_scratch hpass hn
    · rw [if_neg hs, if_neg fun hl => hs ((isLeafOf_iff a s n).mp hl).2.2]
      exact h.table s

theorem ExtractedBelow.depthAt_eq : depthAt x n = (nodePath a n).length := (h.own_scratch hpass hn).1

end Pass

/-- R142: the pass comes to node `n` when no node below it overflows. -/
theorem exists_extractedBelow {a : Vector Node 511} (hpass : treeCheck a = none) {n : Nat} (hn : n ≤ 511)
    (hno : ∀ i < n, ¬ Overflows a i) :
    ∃ x, ExtractedBelow a n x ∧ extractTable a = extractFrom n (a.toList.drop n) x := by
  induction n with
  | zero => exact ⟨clearedExtractor, extractedBelow_zero a, rfl⟩
  | succ n ih =>
    obtain ⟨x, hx, hrun⟩ := ih (by omega) fun i hi => hno i (by omega)
    have hcons : a.toList.drop n = a[n] :: a.toList.drop (n + 1) := by
      rw [List.drop_eq_getElem_cons (by simpa using hn), Vector.getElem_toList]
    rw [hrun, hcons]
    cases hint : a[n].internal with
    | true =>
      have hd : depthAt x n ≠ 255 := fun hd => hno n (by omega) ⟨hn, hint, (hx.depthAt_eq hpass hn).symm.trans hd⟩
      exact ⟨_, hx.pushChildren hpass hn hint hd, extractFrom_internal _ hint hd⟩
    | false => exact ⟨_, hx.recordLeaf hpass hn hint, extractFrom_leaf _ hint⟩

/-- R140, R144: with no overflow the table holds the path of each symbol's highest-index leaf. -/
theorem extractTable_ok {a : Vector Node 511} (hpass : treeCheck a = none) (hno : ∀ i, ¬ Overflows a i) :
    ∃ x, extractTable a = .ok x ∧
      ∀ s : Byte, TableHolds x.len x.code s (((lastLeaf a s).map (nodePath a)).getD []) := by
  obtain ⟨x, hx, hrun⟩ := exists_extractedBelow hpass (le_refl 511) fun i _ => hno i
  rw [List.drop_of_length_le (by simp)] at hrun
  exact ⟨x, hrun, hx.table⟩

/-- R146: the pass reports the lowest node that overflows. -/
theorem extractTable_error {a : Vector Node 511} (hpass : treeCheck a = none) {i : Nat} (hi : Overflows a i)
    (hlow : ∀ j < i, ¬ Overflows a j) : extractTable a = .error i := by
  obtain ⟨hlt, hint, hlen⟩ := hi
  obtain ⟨x, hx, hrun⟩ := exists_extractedBelow hpass hlt.le hlow
  rw [hrun, List.drop_eq_getElem_cons (by simpa using hlt), Vector.getElem_toList]
  exact extractFrom_overflow _ hint ((hx.depthAt_eq hpass hlt).trans hlen)

/-! ## EXTRACT (41_code_extractor.md R140, R146) -/

theorem exec_extract_ok {s : State} {x : Extractor} (hpass : treeCheck s.node = none)
    (hx : extractTable s.node = .ok x) :
    exec .extract s =
      .next (complete (validity .extractCompletes (forgetScratch ((validity .checkPasses s).withExtractor x)))) := by
  rw [exec, execExtract, checkedTree_pass hpass]
  simp [validity, hx]

theorem exec_extract_error {s : State} {i : Nat} (hpass : treeCheck s.node = none)
    (hi : extractTable s.node = .error i) :
    exec .extract s = .next (latch .codeLengthOverflow (BitVec.ofNat 32 i) (validity .codeLengthOverflow
      (forgetScratch ((validity .checkPasses s).withExtractor clearedExtractor)))) := by
  rw [exec, execExtract, checkedTree_pass hpass]
  simp [validity, hi, raiseError, abortsStream]

/-- Settles O31: the pass comes to its end, and the entries below 511 are the whole table. -/
theorem extractTableFollowsPaths : Obligations.ExtractTableFollowsPaths := by
  intro s hpass hdepth
  obtain ⟨x, hx, htable⟩ := extractTable_ok hpass fun i ⟨hi, hint, hlen⟩ => hdepth i hi hint hlen
  exact ⟨_, exec_extract_ok hpass hx, htable, rfl⟩

/-- Settles O32: the pass stops at the lowest internal node at depth 255. -/
theorem extractOverflowClearsTable : Obligations.ExtractOverflowClearsTable := by
  intro s hpass i hi hint hlen hlow
  have herror : extractTable s.node = .error i :=
    extractTable_error hpass ⟨hi, hint, hlen⟩ fun j hj ⟨_, hjint, hjlen⟩ => hlow j hj hjint hjlen
  exact ⟨_, exec_extract_error hpass herror, rfl⟩

/-- Settles O33: both commands begin with `checkedTree`. -/
theorem failingArenaStopsExtractAndDecode : Obligations.FailingArenaStopsExtractAndDecode := by
  intro s i c hfail
  have hlatch := malformedInfo_eq c ((treeCheck_some s.node i c).mp hfail).1
  have hextract : exec .extract s = .next (latch .malformedTree (malformedInfo i c) (validity .checkFails s)) := by
    rw [exec, execExtract, checkedTree_fail hfail]
  refine ⟨?_, fun hrun => ?_⟩
  · rw [hextract, hlatch]
    cases c <;> rfl
  · have hphase : s.phase = .start := by simp [State.phase, show s.engine = _ from hrun]
    have hdecode : exec .decode s = .next (latch .malformedTree (malformedInfo i c) (validity .checkFails s)) := by
      simp only [exec, execDecode, hphase, checkedTree_fail hfail]
    rw [hdecode, hlatch]
    cases c <;> rfl

end Sys2Proof.Machine

namespace Sys2Proof.Machine

/-! ## The paths of a built tree (41_code_extractor.md R147, items 1 to 3) -/

/-- A walk goes on from where its first bits lead. -/
theorem walkTo_append {a : Vector Node 511} {i j : NodeIx} {l : List Bool} (h : walkTo a i l = some j)
    (r : List Bool) : walkTo a i (l ++ r) = walkTo a j r := by
  induction l generalizing i with
  | nil =>
    obtain ⟨-, rfl⟩ := (walkTo_nil_eq_some_iff a i j).mp h
    rfl
  | cons e l ih =>
    obtain ⟨n, hn, hint, hrest⟩ := (walkTo_cons_eq_some_iff a i j e l).mp h
    simpa [walkTo, hn, hint] using ih hrest

theorem nodePath_root {a : Vector Node 511} (hpass : treeCheck a = none) : nodePath a 0 = [] :=
  nodePath_eq_pathBelow hpass (le_refl 0) (Nat.zero_le _)

theorem buildsShape_buildTree (w : Vector Word 256) (b : Builder) : BuildsShape 0 (buildTree w b) :=
  (buildsWeights_buildTree w b).toBuildsShape

theorem edge_child (b : Builder) {i : Nat} (hi : i < 255) (e : Bool) : b.Edge 0 i e (b.node[i].child e) :=
  ⟨Nat.zero_le i, hi, rfl⟩

section Built

variable {b : Builder} (h : BuildsShape 0 b)
include h

theorem BuildsShape.isParent_iff {i c : Nat} :
    isParent b.node i c = true ↔ ∃ hi : i < 255, ∃ e, (b.node[i].child e).toNat = c := by
  rw [Machine.isParent_iff]
  constructor
  · rintro ⟨hi, hint, hchild⟩
    exact ⟨(h.internal i hi (Nat.zero_le i)).mp hint, hchild⟩
  · rintro ⟨hi, hchild⟩
    exact ⟨by omega, (h.internal i (by omega) (Nat.zero_le i)).mpr hi, hchild⟩

theorem BuildsShape.child_range {i : Nat} (hi : i < 255) (e : Bool) :
    1 ≤ (b.node[i].child e).toNat ∧ (b.node[i].child e).toNat ≤ 510 := by
  obtain ⟨habove, hle⟩ := h.edge_above (edge_child b hi e)
  exact ⟨by omega, hle⟩

/-- R147: as no other edge leads to a child, its path is its parent's and the bit of its edge. -/
theorem BuildsShape.nodePath_child {i : Nat} (hi : i < 255) (e : Bool) :
    nodePath b.node (b.node[i].child e).toNat = nodePath b.node i ++ [e] := by
  have hpass := h.treeCheck_node
  obtain ⟨-, hle⟩ := h.child_range hi e
  have hone : ∀ j f (hj : j < 255), (b.node[j].child f).toNat = (b.node[i].child e).toNat → j = i ∧ f = e :=
    fun j f hj heq => h.oneEdge _ _ _ _ _ ⟨Nat.zero_le j, hj, BitVec.eq_of_toNat_eq heq⟩ (edge_child b hi e)
  have hlast : lastBelow (fun j => isParent b.node j (b.node[i].child e).toNat) 511 = some i := by
    refine lastBelow_eq_some_of_unique (by omega) fun j => ?_
    rw [h.isParent_iff]
    exact ⟨fun ⟨hj, f, hf⟩ => (hone j f hj hf).1, by rintro rfl; exact ⟨hi, e, rfl⟩⟩
  have hbit := child_edgeBit (a := b.node) (i := i) (by omega) (h.isParent_iff.mpr ⟨hi, e, rfl⟩)
  rw [nodePath_eq_pathBelow hpass (n := 511) (by omega) (le_refl _), pathBelow, hlast, Option.elim_some, pathVia,
    (hone i _ hi hbit).2]

/-- The path EXTRACT follows leads to its node. -/
theorem BuildsShape.walkTo_nodePath (c : NodeIx) (hnil : c ≠ Config.nil) :
    walkTo b.node Config.root (nodePath b.node c.toNat) = some c := by
  obtain ⟨m, hm⟩ : ∃ m, c.toNat = m := ⟨_, rfl⟩
  induction m using Nat.strong_induction_on generalizing c with
  | _ m ih =>
  rcases h.covered c (Nat.zero_le _) hnil with hin | ⟨i, e, hedge⟩
  · rw [h.orph_eq_root, List.mem_singleton] at hin
    subst hin
    obtain ⟨n, hroot, -⟩ := root_internal_of_treeCheck h.treeCheck_node
    exact (congrArg _ (nodePath_root h.treeCheck_node)).trans (walkTo_nil hroot)
  · obtain ⟨habove, -⟩ := h.edge_above hedge
    obtain ⟨-, hi, rfl⟩ := hedge
    have htoNat : (BitVec.ofNat 9 i).toNat = i := toNat_nodeIx (by omega)
    have hwalk := ih i (by omega) (BitVec.ofNat 9 i) (ne_nil_of_toNat_le (by omega)) htoNat
    rw [htoNat] at hwalk
    rw [h.nodePath_child hi, h.walkTo_concat_iff]
    exact ⟨_, hwalk, htoNat.symm ▸ edge_child b hi e⟩

/-- Indices rise along the walk to node `i` (R122). -/
theorem BuildsShape.length_nodePath_le {i : Nat} (hi : i ≤ 510) : (nodePath b.node i).length ≤ i := by
  have htoNat : (BitVec.ofNat 9 i).toNat = i := toNat_nodeIx (by omega)
  have hwalk := h.walkTo_nodePath (BitVec.ofNat 9 i) (ne_nil_of_toNat_le (by omega))
  have hle := add_length_le_of_walkTo h.treeCheck_node hwalk
  rw [htoNat] at hle
  omega

/-- R147: no internal node has depth 255. -/
theorem BuildsShape.not_overflows (i : Nat) : ¬ Overflows b.node i := by
  rintro ⟨hi, hint, hlen⟩
  have hlt := (h.internal i hi (Nat.zero_le i)).mp hint
  have hle := h.length_nodePath_le (i := i) (by omega)
  omega

/-- R147: the parent of a node is internal, at a depth of at most 254. -/
theorem BuildsShape.length_nodePath_range {c : Nat} (hc : 1 ≤ c) (hle : c ≤ 510) :
    1 ≤ (nodePath b.node c).length ∧ (nodePath b.node c).length ≤ 255 := by
  obtain ⟨⟨i, e⟩, hchild, -⟩ := h.existsUnique_parent hc hle
  have hlen := h.length_nodePath_le (i := i.val) (by omega)
  rw [← hchild, h.nodePath_child i.isLt, List.length_append, List.length_singleton]
  omega

end Built

/-- The path to symbol `s`'s leaf in a built tree. -/
def leafPath (a : Vector Node 511) (s : Byte) : List Bool := nodePath a (leafIx s).toNat

theorem toNat_leafIx (s : Byte) : (leafIx s).toNat = 255 + s.toNat := toNat_leaf s.isLt

theorem leafIx_ne_nil (s : Byte) : leafIx s ≠ Config.nil :=
  ne_nil_of_toNat_le (by have := toNat_leafIx s; omega)

theorem nodeAt_leafIx (w : Vector Word 256) (b : Builder) (s : Byte) :
    nodeAt (buildTree w b).node (leafIx s) = some (Node.leaf s) := by
  obtain ⟨-, -, hleaf, -⟩ := builtTreeIsWellFormed w b
  exact hleaf s

/-- R118: symbol `s` stands on one leaf. -/
theorem lastLeaf_buildTree (w : Vector Word 256) (b : Builder) (s : Byte) :
    lastLeaf (buildTree w b).node s = some (leafIx s).toNat := by
  have h := buildsShape_buildTree w b
  rw [lastLeaf_eq_lastBelow, toNat_leafIx]
  refine lastBelow_eq_some_of_unique (by omega) fun i => ?_
  rw [isLeafOf_iff]
  constructor
  · rintro ⟨hi, hleaf, hs⟩
    have hge : 255 ≤ i := by
      by_contra hlt
      have hint := (h.internal i hi (Nat.zero_le i)).mpr (by omega)
      simp [hint] at hleaf
    obtain ⟨k, rfl⟩ := Nat.exists_eq_add_of_le hge
    have hnode := (Vector.getElem?_eq_some_iff.mp (buildTree_leaf w b k (by omega)).1).2
    rw [hnode] at hs
    have hk := congrArg BitVec.toNat hs
    rw [Node.leaf, BitVec.toNat_ofNat, Nat.mod_eq_of_lt (by omega)] at hk
    rw [hk]
  · rintro rfl
    obtain ⟨hi, hnode⟩ := (nodeAt_eq_some ..).mp (nodeAt_leafIx w b s)
    simp only [toNat_leafIx] at hi hnode
    exact ⟨hi, by rw [hnode]; rfl, by rw [hnode]; rfl⟩

/-- R147: EXTRACT gives every symbol of a built tree the path to its leaf. -/
theorem extractTable_buildTree (w : Vector Word 256) (b : Builder) :
    ∃ x, extractTable (buildTree w b).node = .ok x ∧
      ∀ s : Byte, TableHolds x.len x.code s (leafPath (buildTree w b).node s) := by
  have h := buildsShape_buildTree w b
  obtain ⟨x, hx, htable⟩ := extractTable_ok h.treeCheck_node h.not_overflows
  refine ⟨x, hx, fun s => ?_⟩
  have hs := htable s
  rwa [lastLeaf_buildTree, Option.map_some, Option.getD_some] at hs

/-- Settles O34: EXTRACT's paths are walks to the leaves. -/
theorem builtTableIsTreePaths : Obligations.BuiltTableIsTreePaths := by
  intro w b
  have h := buildsShape_buildTree w b
  obtain ⟨x, hx, htable⟩ := extractTable_buildTree w b
  refine ⟨x, hx, fun s => ?_⟩
  have hs := toNat_leafIx s
  obtain ⟨hlo, hhi⟩ := h.length_nodePath_range (c := (leafIx s).toNat) (by omega) (by omega)
  rw [codeString_eq_of_tableHolds (htable s), (htable s).1]
  exact ⟨hlo, hhi, h.walkTo_nodePath _ (leafIx_ne_nil s)⟩

end Sys2Proof.Machine

namespace Sys2Proof.Machine

/-! ## No code begins another, and the tree is full (41_code_extractor.md R147, items 4 to 6) -/

/-- A walk does not go on past a leaf. -/
theorem leafPath_inj_of_isPrefix {w : Vector Word 256} {b : Builder} {y z : Byte}
    (hpre : leafPath (buildTree w b).node y <+: leafPath (buildTree w b).node z) : y = z := by
  have h := buildsShape_buildTree w b
  obtain ⟨r, hr⟩ := hpre
  have hz := h.walkTo_nodePath _ (leafIx_ne_nil z)
  rw [leafPath, leafPath] at hr
  rw [← hr, walkTo_append (h.walkTo_nodePath _ (leafIx_ne_nil y))] at hz
  cases r with
  | nil =>
    obtain ⟨-, heq⟩ := (walkTo_nil_eq_some_iff ..).mp hz
    have hnat := congrArg BitVec.toNat heq
    rw [toNat_leafIx, toNat_leafIx] at hnat
    exact BitVec.eq_of_toNat_eq (by omega)
  | cons e r =>
    obtain ⟨n, hn, hint, -⟩ := (walkTo_cons_eq_some_iff ..).mp hz
    obtain rfl : Node.leaf y = n := Option.some.inj ((nodeAt_leafIx w b y).symm.trans hn)
    simp [Node.leaf] at hint

/-- What a node weighs in the Kraft sum: `2 ^ 255` at the root, halved by every edge. -/
def kraftWeight (a : Vector Node 511) (c : Nat) : Nat := 2 ^ (255 - (nodePath a c).length)

theorem two_pow_add_two_pow {d : Nat} (h : d < 255) : 2 ^ (255 - (d + 1)) + 2 ^ (255 - (d + 1)) = 2 ^ (255 - d) := by
  have hsucc : 255 - d = 255 - (d + 1) + 1 := by omega
  rw [hsucc, pow_succ, Nat.mul_two]

section Kraft

variable {b : Builder} (h : BuildsShape 0 b)
include h

/-- An internal node weighs as much as its two children. -/
theorem BuildsShape.kraftWeight_children {i : Nat} (hi : i < 255) :
    ∑ e, kraftWeight b.node (b.node[i].child e).toNat = kraftWeight b.node i := by
  have hlen := h.length_nodePath_le (i := i) (by omega)
  simp only [Fintype.sum_bool, kraftWeight, h.nodePath_child hi, List.length_append, List.length_singleton]
  exact two_pow_add_two_pow (by omega)

/-- Every node but the root is the child of exactly one edge. -/
theorem BuildsShape.sum_children_eq (f : Nat → Nat) :
    ∑ p : Fin 255 × Bool, f (b.node[p.1.val].child p.2).toNat = ∑ c ∈ Finset.Ico 1 511, f c := by
  refine Finset.sum_nbij (fun p => (b.node[p.1.val].child p.2).toNat) (fun p _ => ?_) (fun p _ q _ hpq => ?_)
    (fun c hc => ?_) (fun _ _ => rfl)
  · obtain ⟨hlo, hhi⟩ := h.child_range p.1.isLt p.2
    exact Finset.mem_Ico.mpr ⟨hlo, Nat.lt_succ_of_le hhi⟩
  · obtain ⟨hlo, hhi⟩ := h.child_range q.1.isLt q.2
    obtain ⟨r, -, hone⟩ := h.existsUnique_parent hlo hhi
    exact (hone p hpq).trans (hone q rfl).symm
  · obtain ⟨hlo, hhi⟩ := Finset.mem_Ico.mp (Finset.mem_coe.mp hc)
    obtain ⟨p, hp, -⟩ := h.existsUnique_parent hlo (Nat.le_of_lt_succ hhi)
    exact ⟨p, by simp, hp⟩

/-- R147: counted over all nodes, the weights of the internal nodes stand on both sides. -/
theorem BuildsShape.sum_kraftWeight_leaves : ∑ k ∈ Finset.range 256, kraftWeight b.node (255 + k) = 2 ^ 255 := by
  have hroot : kraftWeight b.node 0 = 2 ^ 255 := by rw [kraftWeight, nodePath_root h.treeCheck_node, List.length_nil]
  have hchildren : ∑ c ∈ Finset.Ico 1 511, kraftWeight b.node c = ∑ i ∈ Finset.range 255, kraftWeight b.node i := by
    rw [← h.sum_children_eq, Fintype.sum_prod_type, Finset.sum_range]
    exact Finset.sum_congr rfl fun i _ => h.kraftWeight_children i.isLt
  have hall := Finset.sum_range_eq_add_Ico (kraftWeight b.node) (n := 511) (by omega)
  have hsplit := Finset.sum_range_add (kraftWeight b.node) 255 256
  rw [hchildren, hroot] at hall
  exact Nat.add_right_cancel ((Nat.add_comm _ _).trans (hsplit.symm.trans hall))

end Kraft

/-- Settles O35; codes of at most 7 bits alone would weigh `256 * 2 ^ 248` in the Kraft sum. -/
theorem builtTableIsPrefixFree : Obligations.BuiltTableIsPrefixFree := by
  intro w b
  have h := buildsShape_buildTree w b
  obtain ⟨x, hx, htable⟩ := extractTable_buildTree w b
  have hsum : ∑ n ∈ Finset.range 256, 2 ^ (255 - lenAt x.len (BitVec.ofNat 8 n)) = 2 ^ 255 := by
    rw [← h.sum_kraftWeight_leaves]
    refine Finset.sum_congr rfl fun n hn => ?_
    rw [(htable _).1, leafPath, toNat_leafIx, BitVec.toNat_ofNat, Nat.mod_eq_of_lt (Finset.mem_range.mp hn),
      kraftWeight]
  refine ⟨x, hx, fun y z hne hpre => hne ?_, hsum, ?_⟩
  · rw [codeString_eq_of_tableHolds (htable y), codeString_eq_of_tableHolds (htable z)] at hpre
    exact leafPath_inj_of_isPrefix hpre
  · by_contra hshort
    have hexp : ∀ n, 248 ≤ 255 - lenAt x.len (BitVec.ofNat 8 n) := fun n => by
      have := not_exists.mp hshort (BitVec.ofNat 8 n)
      omega
    have hle := Finset.card_nsmul_le_sum (Finset.range 256) _ _ fun n _ => Nat.pow_le_pow_right Nat.two_pos (hexp n)
    rw [hsum] at hle
    simp at hle

end Sys2Proof.Machine

namespace Sys2Proof.Machine

/-! ## The end of an output stream (42_bit_stream.md R165, 43_encoder.md R180, 44_decoder.md R200) -/

section StreamEnd
variable {i : Instr} {s : State} {tok : OutToken}

theorem exec_of_ended_room (hi : i = .encode ∨ i = .decode ∨ i = .wclose) (hrun : Runs i (.outPut tok .ended) s)
    (hroom : hasRoom s) : exec i s = .next (complete { s with outq := s.outq ++ [tok] }) := by
  have hphase := phase_of_runs hrun
  obtain rfl | rfl | rfl := hi
  · rw [exec, execEncode, hphase]
    exact outPut_room hroom
  · rw [exec, execDecode, hphase]
    exact outPut_room hroom
  · rw [exec, execWclose, hphase]
    exact outPut_room hroom

theorem exec_of_aborted_room (hi : i = .encode ∨ i = .decode ∨ i = .wclose) {e : ErrorKind} {info : Word}
    (hrun : Runs i (.outPut tok (.aborted e info)) s) (hroom : hasRoom s) :
    exec i s = .next (latch e info { s with outq := s.outq ++ [tok] }) := by
  have hphase := phase_of_runs hrun
  obtain rfl | rfl | rfl := hi
  · rw [exec, execEncode, hphase]
    exact outPut_room hroom
  · rw [exec, execDecode, hphase]
    exact outPut_room hroom
  · rw [exec, execWclose, hphase]
    exact outPut_room hroom

end StreamEnd

/-- R243: the raise waits at OutPut(ABORT). -/
theorem raiseError_of_abortsStream {i : Instr} {e : ErrorKind} (h : abortsStream e i = true) (info : Word) (s : State) :
    raiseError (some i) e info s = enter i (.outPut .abort (.aborted e info)) s := if_pos h

/-- R242: the raise latches at once. -/
theorem raiseError_of_not_abortsStream {i : Instr} {e : ErrorKind} (h : ¬ abortsStream e i = true) (info : Word)
    (s : State) : raiseError (some i) e info s = latch e info s := if_neg h

end Sys2Proof.Machine

namespace Sys2Proof.Machine

/-! ## PutBit and WBIT (42_bit_stream.md R160, R164) -/

/-- R69, on bits counted from the least significant end. -/
theorem getLsbD_setMsb {w : Nat} (x : BitVec w) (i : Nat) (b : Bool) (j : Nat) (hi : i < w) (hj : j < w) :
    (setMsb x i b).getLsbD j = if j = w - 1 - i then b else x.getLsbD j := by
  have hpos : w - 1 - j = i ↔ j = w - 1 - i := by omega
  simp only [BitVec.getLsbD_eq_getMsbD, getMsbD_setMsb x i b _ hi, hj, hpos, decide_true, Bool.true_and]

section PutBit
variable {s : State} {b : Bool}

theorem shiftIn_of_wcnt_ne (h : s.wcnt ≠ 7#3) :
    shiftIn b s = { s with wbuf := setMsb s.wbuf s.wcnt.toNat b, wcnt := s.wcnt + 1#3 } := by
  rw [shiftIn, if_neg fun hdue => h ((flushDue_iff s).mp hdue)]

theorem shiftIn_of_wcnt_eq (h : s.wcnt = 7#3) : shiftIn b s = { s with wbuf := setMsb s.wbuf 7 b } := by
  rw [shiftIn, if_pos ((flushDue_iff s).mpr h), show s.wcnt.toNat = 7 from congrArg BitVec.toNat h]

theorem putBit_of_wcnt_ne (i : Instr) (k : AfterOut) (go : State → State) (h : s.wcnt ≠ 7#3) :
    putBit i k b go s = go (shiftIn b s) := if_neg fun hdue => h ((flushDue_iff s).mp hdue)

theorem putBit_of_wcnt_eq (i : Instr) (k : AfterOut) (go : State → State) (h : s.wcnt = 7#3) :
    putBit i k b go s = enter i (.outPut (.byte (shiftIn b s).wbuf) k) (shiftIn b s) :=
  if_pos ((flushDue_iff s).mpr h)

theorem exec_wbit_of_start (hrun : Runs (.wbit b) .start s) :
    exec (.wbit b) s = .next (putBit (.wbit b) .bitWritten b complete s) := by
  rw [exec, execWbit, phase_of_runs hrun]

theorem exec_wbit_of_room {tok : OutToken} (hrun : Runs (.wbit b) (.outPut tok .bitWritten) s) (hroom : hasRoom s) :
    exec (.wbit b) s = .next (complete (clearWrite { s with outq := s.outq ++ [tok] })) := by
  rw [exec, execWbit, phase_of_runs hrun]
  exact outPut_room hroom

end PutBit

/-- Settles O36: the two sides of PutBit, WBIT's own OutPut, and the bit it writes. -/
theorem wbitAppendsOneBit : Obligations.WbitAppendsOneBit := by
  intro s b
  refine ⟨fun hrun hne => ?_, fun hrun h7 => ?_, fun d hrun hroom => exec_wbit_of_room hrun hroom,
    fun d => exec_of_full (.bitWritten b), fun j hj => ?_⟩
  · rw [exec_wbit_of_start hrun, putBit_of_wcnt_ne _ _ _ hne, shiftIn_of_wcnt_ne hne, complete]
  · rw [exec_wbit_of_start hrun, putBit_of_wcnt_eq _ _ _ h7, shiftIn_of_wcnt_eq h7, enter]
  · exact getLsbD_setMsb s.wbuf s.wcnt.toNat b j s.wcnt.isLt hj

end Sys2Proof.Machine

namespace Sys2Proof.Machine

/-! ## WCLOSE and RBIT (42_bit_stream.md R165, R166) -/

section BitStream
variable {s : State}

theorem exec_wclose_of_aligned (hrun : Runs .wclose .start s) (h : s.wcnt = 0#3) :
    exec .wclose s = .next (enter .wclose (.outPut .endStream .ended) s) := by
  rw [exec, execWclose, phase_of_runs hrun]
  exact if_pos h

theorem exec_wclose_of_unaligned (hrun : Runs .wclose .start s) (h : s.wcnt ≠ 0#3) :
    exec .wclose s =
      .next (enter .wclose (.outPut .abort (.aborted .unalignedWriteClose (s.wcnt.setWidth 32))) s) := by
  rw [exec, execWclose, phase_of_runs hrun, ← raiseError_of_abortsStream (by decide)]
  exact if_neg h

theorem resultBit_eq (b : Bool) : resultBit b = if b = true then 1#2 else 0#2 := by
  cases b <;> rfl

/-- R161: the bit above the `n` left is delivered. -/
theorem readBit_eq (n : Nat) (s : State) :
    readBit n s = { s with
      result := if s.rbuf.getLsbD n = true then 1#2 else 0#2
      rcnt := BitVec.ofNat 3 n, engine := .idle, done := true } := by
  rw [readBit, resultBit_eq]
  rfl

theorem exec_rbit_of_empty (hrun : Runs .rbit .start s) (h : s.rcnt = 0#3) :
    exec .rbit s = .next (enter .rbit .inTake s) := by
  rw [exec, execRbit, phase_of_runs hrun, h]
  rfl

theorem exec_rbit_of_unread (hrun : Runs .rbit .start s) (h : s.rcnt ≠ 0#3) :
    exec .rbit s = .next (readBit (s.rcnt.toNat - 1) s) := by
  have hpos : s.rcnt.toNat ≠ 0 := fun hzero => h (BitVec.eq_of_toNat_eq hzero)
  obtain ⟨n, hn⟩ := Nat.exists_eq_add_one_of_ne_zero hpos
  rw [exec, execRbit, phase_of_runs hrun, hn]
  rfl

theorem exec_rbit_of_token {tok : InToken} {rest : List InToken} (hrun : Runs .rbit .inTake s)
    (hsrc : s.source = tok :: rest) : exec .rbit s = readToken tok { s with source := rest } := by
  rw [exec, execRbit, phase_of_runs hrun, inTake_cons hsrc]

/-- R166, R243: RBIT has no output stream to abort. -/
theorem raiseError_rbit (e : ErrorKind) (info : Word) (s : State) :
    raiseError (some .rbit) e info s = latch e info s :=
  raiseError_of_not_abortsStream (by simp [abortsStream_iff]) info s

theorem truncatedInfo_fail_rbit : truncatedInfo (inKind .fail) (opcode .rbit) = 0x00000208#32 := by decide

theorem truncatedInfo_rsvd_rbit : truncatedInfo (inKind .rsvd) (opcode .rbit) = 0x00000308#32 := by decide

end BitStream

/-- Settles O37: `wcnt` decides which token ends the stream, and either one waits at an OutPut of WCLOSE's own. -/
theorem wcloseNeedsByteBoundary : Obligations.WcloseNeedsByteBoundary := by
  intro s
  refine ⟨exec_wclose_of_aligned, exec_of_ended_room (by simp), exec_wclose_of_unaligned,
    fun info => exec_of_aborted_room (by simp), fun t k hend => ?_⟩
  obtain ⟨rfl, rfl⟩ | ⟨info, rfl, rfl⟩ := hend
  · exact exec_of_full (.ended (by simp))
  · exact exec_of_full (.aborted (by simp) .unalignedWriteClose info)

/-- Settles O38: GetBit on an unread bit, on each kind of token, and without one. -/
theorem rbitReadsOneBit : Obligations.RbitReadsOneBit := by
  intro s
  refine ⟨fun hrun hne => ?_, exec_rbit_of_empty, fun d rest hrun hsrc => ?_, fun rest hrun hsrc => ?_,
    fun rest hrun hsrc => ?_, fun rest hrun hsrc => ?_, exec_of_no_token (by simp)⟩
  · have hleft : BitVec.ofNat 3 (s.rcnt.toNat - 1) = s.rcnt - 1#3 := by bv_omega
    rw [exec_rbit_of_unread hrun hne, readBit_eq, hleft]
  · rw [exec_rbit_of_token hrun hsrc, readToken, readBit_eq, loadByte]
  · rw [exec_rbit_of_token hrun hsrc]
    rfl
  · rw [exec_rbit_of_token hrun hsrc, readToken, raiseError_rbit, truncatedInfo_fail_rbit]
    rfl
  · rw [exec_rbit_of_token hrun hsrc, readToken, raiseError_rbit, truncatedInfo_rsvd_rbit]
    rfl

end Sys2Proof.Machine

namespace Sys2Proof.Machine

/-! ## Bytes of eight bits (20_memory.md R69) -/

/-- The number read from bits, the first one the most significant. -/
theorem testBit_foldl_bits (l : List Bool) (j : Nat) :
    (l.foldl (fun (n : Nat) (b : Bool) => 2 * n + b.toNat) 0).testBit j = l.reverse.getD j false := by
  induction l using List.reverseRecOn generalizing j with
  | nil => simp
  | append_singleton l b ih =>
    rw [List.foldl_append, List.foldl_cons, List.foldl_nil, ← Nat.bit_val, List.reverse_append]
    cases j with
    | zero => simp
    | succ j =>
      rw [Nat.testBit_bit_succ, ih]
      rfl

theorem getMsbD_bitsByte {l : List Bool} (h : l.length = 8) (j : Nat) : (bitsByte l).getMsbD j = l.getD j false := by
  by_cases hj : j < 8
  · have hback : l.reverse.getD (8 - 1 - j) false = l.getD j false := by
      rw [List.getD_reverse _ (by omega), h]
      congr 1
      omega
    have hlt : 8 - 1 - j < 8 := by omega
    simp only [BitVec.getMsbD, bitsByte, BitVec.getLsbD_ofNat, testBit_foldl_bits, hback, hj, hlt, decide_true,
      Bool.true_and]
  · rw [BitVec.getMsbD_of_ge _ _ (by omega), List.getD_eq_default _ _ (by omega)]

theorem length_byteBits (d : Byte) : (byteBits d).length = 8 := by simp [byteBits]

theorem getD_byteBits (d : Byte) (j : Nat) : (byteBits d).getD j false = d.getMsbD j := by
  by_cases hj : j < 8
  · simp [byteBits, hj]
  · rw [BitVec.getMsbD_of_ge _ _ (by omega), List.getD_eq_default _ _ (by rw [length_byteBits]; omega)]

theorem bitsByte_byteBits (d : Byte) : bitsByte (byteBits d) = d :=
  BitVec.eq_of_getMsbD_eq fun j _ => by rw [getMsbD_bitsByte (length_byteBits d), getD_byteBits]

theorem byteBits_bitsByte {l : List Bool} (h : l.length = 8) : byteBits (bitsByte l) = l := by
  refine List.ext_getElem (by rw [length_byteBits, h]) fun j _ hj => ?_
  simp only [byteBits, List.getElem_map, List.getElem_range, getMsbD_bitsByte h, List.getD_eq_getElem _ _ hj]

/-! ## The bytes of a bit string (43_encoder.md R181) -/

/-- The bits after the last whole byte. -/
def lastBits (l : List Bool) : List Bool := l.drop (8 * (l.length / 8))

theorem packBytes_of_short {l : List Bool} (h : l.length < 8) : packBytes l = [] := by
  simp [packBytes, Nat.div_eq_of_lt h]

theorem lastBits_of_short {l : List Bool} (h : l.length < 8) : lastBits l = l := by
  simp [lastBits, Nat.div_eq_of_lt h]

theorem packBytes_append_of_byte {a : List Bool} (h : a.length = 8) (b : List Bool) :
    packBytes (a ++ b) = bitsByte a :: packBytes b := by
  have hlen : (a ++ b).length / 8 = b.length / 8 + 1 := by rw [List.length_append, h]; omega
  rw [packBytes, hlen, List.range_succ_eq_map, List.map_cons, List.map_map, packBytes]
  congr 1
  · simp [← h]
  · refine List.map_congr_left fun i _ => ?_
    have hdrop : 8 * (i + 1) = a.length + 8 * i := by omega
    rw [Function.comp, Nat.succ_eq_add_one, hdrop, List.drop_length_add_append]

theorem lastBits_append_of_byte {a : List Bool} (h : a.length = 8) (b : List Bool) :
    lastBits (a ++ b) = lastBits b := by
  have hlen : 8 * ((a ++ b).length / 8) = a.length + 8 * (b.length / 8) := by
    rw [List.length_append, h]
    omega
  rw [lastBits, hlen, List.drop_length_add_append, lastBits]

theorem length_lastBits (l : List Bool) : (lastBits l).length = l.length % 8 := by
  simp [lastBits]
  omega

theorem length_lastBits_lt (l : List Bool) : (lastBits l).length < 8 := length_lastBits l ▸ Nat.mod_lt _ (by omega)

theorem length_packBytes (l : List Bool) : (packBytes l).length = l.length / 8 := by simp [packBytes]

/-- A bit string is shorter than a byte, or a byte and a bit string. -/
theorem byteInduction {P : List Bool → Prop} (short : ∀ l, l.length < 8 → P l)
    (byte : ∀ a b, a.length = 8 → P b → P (a ++ b)) (l : List Bool) : P l := by
  induction h : l.length using Nat.strong_induction_on generalizing l with
  | _ n ih =>
    subst h
    by_cases hl : l.length < 8
    · exact short l hl
    · rw [← List.take_append_drop 8 l]
      exact byte _ _ (by simp; omega) (ih _ (by simp; omega) _ rfl)

/-- Bits written after others: the bytes the others fill come out first, and the rest of them stands before the new
bits. -/
theorem packBytes_append (a b : List Bool) : packBytes (a ++ b) = packBytes a ++ packBytes (lastBits a ++ b) := by
  induction a using byteInduction with
  | short a h => rw [packBytes_of_short h, lastBits_of_short h, List.nil_append]
  | byte c a hc ih =>
    rw [List.append_assoc, packBytes_append_of_byte hc, packBytes_append_of_byte hc, lastBits_append_of_byte hc, ih,
      List.cons_append]

theorem lastBits_append (a b : List Bool) : lastBits (a ++ b) = lastBits (lastBits a ++ b) := by
  induction a using byteInduction with
  | short a h => rw [lastBits_of_short h]
  | byte c a hc ih => rw [List.append_assoc, lastBits_append_of_byte hc, lastBits_append_of_byte hc, ih]

/-! ## The write cursor as a bit string (10_state.md R36, 42_bit_stream.md R160) -/

/-- The byte whose first bits are `l` and whose others are those of `x`. -/
def overwriteBits (l : List Bool) (x : Byte) : Byte := bitsByte (l ++ (byteBits x).drop l.length)

theorem getMsbD_overwriteBits {l : List Bool} (h : l.length ≤ 8) (x : Byte) (j : Nat) :
    (overwriteBits l x).getMsbD j = if j < l.length then l.getD j false else x.getMsbD j := by
  rw [overwriteBits, getMsbD_bitsByte (by simp [length_byteBits]; omega)]
  split
  · rename_i hj
    exact List.getD_append _ _ _ _ hj
  · rename_i hj
    rw [List.getD_append_right _ _ _ _ (by omega), ← getD_byteBits x j]
    simp only [List.getD, List.getElem?_drop]
    congr 2
    omega

theorem overwriteBits_of_byte {l : List Bool} (h : l.length = 8) (x : Byte) : overwriteBits l x = bitsByte l := by
  rw [overwriteBits, List.drop_eq_nil_of_le (by rw [length_byteBits, h]), List.append_nil]

theorem overwriteBits_nil (x : Byte) : overwriteBits [] x = x := bitsByte_byteBits x

/-- R160: one more bit enters at the position of the count. -/
theorem setMsb_overwriteBits {l : List Bool} (h : l.length < 8) (x : Byte) (b : Bool) :
    setMsb (overwriteBits l x) l.length b = overwriteBits (l ++ [b]) x := by
  refine BitVec.eq_of_getMsbD_eq fun j _ => ?_
  rw [getMsbD_setMsb _ _ _ _ h, getMsbD_overwriteBits h.le, getMsbD_overwriteBits (by simpa using h)]
  rcases Nat.lt_trichotomy j l.length with hj | rfl | hj
  · rw [if_neg (by omega), if_pos hj, if_pos (by simp; omega), List.getD_append _ _ _ _ hj]
  · simp
  · rw [if_neg (by omega), if_neg (by omega), if_neg (by simp; omega)]

/-- The write cursor holds the bits `l`; the bits of WBUF below them are those of `x`. -/
def State.holding (s : State) (x : Byte) (l : List Bool) : State :=
  { s with wbuf := overwriteBits l x, wcnt := BitVec.ofNat 3 l.length }

@[simp] theorem holding_len (s : State) (x : Byte) (l : List Bool) : (s.holding x l).len = s.len := rfl
@[simp] theorem holding_code (s : State) (x : Byte) (l : List Bool) : (s.holding x l).code = s.code := rfl

section Holding
variable {s : State} {x : Byte} {l : List Bool}

theorem toNat_wcnt_holding (h : l.length < 8) : (s.holding x l).wcnt.toNat = l.length := by
  simpa [State.holding] using h

theorem heldBits_eq_take (s : State) : heldBits s = (byteBits s.wbuf).take s.wcnt.toNat := by
  have hlt := s.wcnt.isLt
  rw [heldBits, byteBits, ← List.map_take, List.take_range, Nat.min_eq_left (by omega)]

theorem length_heldBits (s : State) : (heldBits s).length = s.wcnt.toNat := by simp [heldBits]

theorem length_heldBits_lt (s : State) : (heldBits s).length < 8 := length_heldBits s ▸ s.wcnt.isLt

theorem heldBits_holding (h : l.length < 8) : heldBits (s.holding x l) = l := by
  rw [heldBits_eq_take, toNat_wcnt_holding h]
  simp [State.holding, overwriteBits, byteBits_bitsByte, length_byteBits, h.le]

theorem holding_heldBits (s : State) : s.holding s.wbuf (heldBits s) = s := by
  have hwbuf : overwriteBits (heldBits s) s.wbuf = s.wbuf := by
    rw [overwriteBits, length_heldBits, heldBits_eq_take, List.take_append_drop, bitsByte_byteBits]
  have hwcnt : BitVec.ofNat 3 (heldBits s).length = s.wcnt := by simp [length_heldBits]
  rw [State.holding, hwbuf, hwcnt]

/-- R36: outside a flush the bits of WBUF below those held are 0. -/
theorem WriteClean.holding_heldBits (h : WriteClean s) : s.holding 0#8 (heldBits s) = s := by
  have hwbuf : overwriteBits (heldBits s) 0#8 = overwriteBits (heldBits s) s.wbuf := by
    refine BitVec.eq_of_getMsbD_eq fun j _ => ?_
    simp only [getMsbD_overwriteBits (length_heldBits_lt s).le]
    split
    · rfl
    · rename_i hj
      rw [h j (by rw [← length_heldBits]; omega), BitVec.getMsbD_zero]
  calc s.holding 0#8 (heldBits s)
    _ = s.holding s.wbuf (heldBits s) := by rw [State.holding, hwbuf]; rfl
    _ = s := Machine.holding_heldBits s

theorem holding_nil (s : State) : s.holding 0#8 [] = clearWrite s := by
  rw [State.holding, overwriteBits_nil]
  rfl

theorem wcnt_holding_eq_iff (h : l.length < 8) {k : Nat} (hk : k < 8) :
    (s.holding x l).wcnt = BitVec.ofNat 3 k ↔ l.length = k := by
  rw [BitVec.toNat_eq, toNat_wcnt_holding h, BitVec.toNat_ofNat, Nat.mod_eq_of_lt hk]

theorem wcnt_holding_ne (h : l.length < 8) {k : Nat} (hk : k < 8) (hne : l.length ≠ k) :
    (s.holding x l).wcnt ≠ BitVec.ofNat 3 k := fun heq => hne ((wcnt_holding_eq_iff h hk).mp heq)

theorem shiftIn_holding (h : l.length < 7) (b : Bool) :
    shiftIn b (s.holding x l) = s.holding x (l ++ [b]) := by
  rw [shiftIn_of_wcnt_ne (wcnt_holding_ne (by omega) (by omega) h.ne), toNat_wcnt_holding (by omega)]
  simp [State.holding, setMsb_overwriteBits (by omega : l.length < 8), BitVec.ofNat_add]

theorem shiftIn_holding_last (h : l.length = 7) (b : Bool) :
    shiftIn b (s.holding x l) = { s with wbuf := bitsByte (l ++ [b]), wcnt := 7#3 } := by
  rw [shiftIn_of_wcnt_eq ((wcnt_holding_eq_iff (by omega) (by omega)).mpr h), State.holding]
  simp only [← h, setMsb_overwriteBits (by omega : l.length < 8)]
  rw [overwriteBits_of_byte (by simp [h])]

end Holding

end Sys2Proof.Machine

namespace Sys2Proof.Machine

/-! ## A loop of PutBit (43_encoder.md R180, R182) -/

/-- The loop that writes the `n` bits of `f` from `j` on and then goes on with `go`; a flush at bit `j` is followed by
`k j`. -/
def putBits (f : Nat → Bool) (k : Nat → AfterOut) (go : State → State) : Nat → Nat → State → State
  | 0, _, s => go s
  | n + 1, j, s => putBit .encode (k j) (f j) (putBits f k go n (j + 1)) s

theorem emitCode_eq_putBits (d : Byte) (n j : Nat) (s : State) :
    emitCode d n j s = putBits (codeBit (codeAt s.code d)) (.codeBit d) (enter .encode .inTake) n j s := by
  induction n generalizing j s with
  | zero => rfl
  | succ n ih => simp only [emitCode, putBits, putBit, ih, shiftIn_code]

theorem emitPad_eq_putBits (p : Byte) (n j : Nat) (s : State) :
    emitPad p n j s =
      putBits (codeBit (codeAt s.code p)) (fun _ => .padBit) (enter .encode (.outPut .endStream .ended)) n j s := by
  induction n generalizing j s with
  | zero => rfl
  | succ n ih => simp only [emitPad, putBits, putBit, ih, shiftIn_code]

section PutBits
variable {f : Nat → Bool} {k : Nat → AfterOut} {go : State → State} {s : State} {x : Byte} {l : List Bool}
  {n j : Nat}

theorem putBits_holding_short (h : l.length + n < 8) :
    putBits f k go n j (s.holding x l) = go (s.holding x (l ++ (List.range' j n).map f)) := by
  induction n generalizing l j with
  | zero => simp [putBits]
  | succ n ih =>
    have hne : (s.holding x l).wcnt ≠ 7#3 := wcnt_holding_ne (by omega) (by omega) (by omega)
    rw [putBits, putBit_of_wcnt_ne _ _ _ hne, shiftIn_holding (by omega), ih (by simp; omega), List.append_assoc]
    rfl

/-- R160: the bit that makes eight is the one at `j + (7 - l.length)`. -/
theorem putBits_holding_byte (h : l.length < 8) (hn : 8 ≤ l.length + n) :
    putBits f k go n j (s.holding x l) =
      enter .encode (.outPut (.byte (bitsByte ((l ++ (List.range' j n).map f).take 8))) (k (j + (7 - l.length))))
        { s with wbuf := bitsByte ((l ++ (List.range' j n).map f).take 8), wcnt := 7#3 } := by
  induction n generalizing l j with
  | zero => omega
  | succ n ih =>
    rw [putBits, List.range'_succ, List.map_cons, List.append_cons]
    by_cases h7 : l.length = 7
    · have hwcnt : (s.holding x l).wcnt = 7#3 := (wcnt_holding_eq_iff h (by omega)).mpr h7
      have htake : ((l ++ [f j]) ++ (List.range' (j + 1) n).map f).take 8 = l ++ [f j] :=
        List.take_left' (by simp [h7])
      rw [putBit_of_wcnt_eq _ _ _ hwcnt, shiftIn_holding_last h7, htake, h7]
      rfl
    · have hne : (s.holding x l).wcnt ≠ 7#3 := wcnt_holding_ne h (by omega) h7
      have hpos : j + 1 + (7 - (l ++ [f j]).length) = j + (7 - l.length) := by simp; omega
      rw [putBit_of_wcnt_ne _ _ _ hne, shiftIn_holding (by omega), ih (by simp; omega) (by simp; omega), hpos]

end PutBits

/-! ## ENCODE's atomic steps -/

theorem codeString_eq_range' (len : Vector Byte 256) (code : Vector Code 256) (d : Byte) :
    codeString len code d = (List.range' 0 (lenAt len d)).map (codeBit (codeAt code d)) := by
  rw [codeString, List.range_eq_range']

theorem length_codeString (len : Vector Byte 256) (code : Vector Code 256) (d : Byte) :
    (codeString len code d).length = lenAt len d := by
  simp [codeString]

/-- A command at phase `p` is already where entering `p` takes it. -/
theorem enter_of_runs {i : Instr} {p : Phase} {s : State} (hrun : Runs i p s) : enter i p s = s := by
  have heng : s.engine = .run (encode i) p := hrun
  rw [enter, ← heng]

section EncodeSteps
variable {s : State} {tok : OutToken}

theorem exec_encode_of_table (hrun : Runs .encode .start s) (h : s.tableValid = true) :
    exec .encode s = .next (enter .encode .inTake s) := by
  rw [exec, execEncode, phase_of_runs hrun]
  exact if_pos h

theorem exec_encode_of_noTable (hrun : Runs .encode .start s) (h : s.tableValid = false) :
    exec .encode s = .next (latch .notReady (encode .encode) s) := by
  rw [exec, execEncode, phase_of_runs hrun, ← raiseError_of_not_abortsStream (i := .encode) (by decide)]
  exact if_neg (by simp [h])

theorem exec_encode_of_token {t : InToken} {rest : List InToken} (hrun : Runs .encode .inTake s)
    (hsrc : s.source = t :: rest) : exec .encode s = encodeToken t { s with source := rest } := by
  rw [exec, execEncode, phase_of_runs hrun]
  exact inTake_cons hsrc

theorem exec_encode_of_codeBit_room {d : Byte} {j : Nat} (hrun : Runs .encode (.outPut tok (.codeBit d j)) s)
    (hroom : hasRoom s) :
    exec .encode s = .next (emitCode d (lenAt s.len d - (j + 1)) (j + 1)
      (clearWrite { s with outq := s.outq ++ [tok] })) := by
  rw [exec, execEncode, phase_of_runs hrun]
  exact outPut_room hroom

theorem exec_encode_of_padBit_room (hrun : Runs .encode (.outPut tok .padBit) s) (hroom : hasRoom s) :
    exec .encode s =
      .next (enter .encode (.outPut .endStream .ended) (clearWrite { s with outq := s.outq ++ [tok] })) := by
  rw [exec, execEncode, phase_of_runs hrun]
  exact outPut_room hroom

theorem raiseError_encode_truncatedStream (info : Word) (s : State) :
    raiseError (some .encode) .truncatedStream info s =
      enter .encode (.outPut .abort (.aborted .truncatedStream info)) s :=
  raiseError_of_abortsStream (by decide) info s

theorem truncatedInfo_fail_encode : truncatedInfo (inKind .fail) (opcode .encode) = 0x00000204#32 := by decide

theorem truncatedInfo_rsvd_encode : truncatedInfo (inKind .rsvd) (opcode .encode) = 0x00000304#32 := by decide

theorem pad_of_aligned (h : s.wcnt = 0#3) : pad s = enter .encode (.outPut .endStream .ended) s := if_pos h

end EncodeSteps

/-- Settles O40: the bits held and the code fill a byte or they do not. -/
theorem encodeTakesOneByte : Obligations.EncodeTakesOneByte := by
  intro s d rest hrun hsrc bits
  have hlen : bits.length = (heldBits s).length + lenAt s.len d := by
    rw [List.length_append, length_codeString]
  have hbits : heldBits s ++ (List.range' 0 (lenAt s.len d)).map (codeBit (codeAt s.code d)) = bits := by
    rw [← codeString_eq_range']
  have hexec : exec .encode s = .next (putBits (codeBit (codeAt s.code d)) (.codeBit d) (enter .encode .inTake)
      (lenAt s.len d) 0 ({ s with source := rest }.holding s.wbuf (heldBits s))) := by
    rw [exec_encode_of_token hrun hsrc, encodeToken, emitCode_eq_putBits]
    exact congrArg (fun t => Host.Outcome.next (putBits _ _ _ _ 0 t)) (holding_heldBits _).symm
  constructor
  · intro hshort
    rw [putBits_holding_short (by omega), hbits] at hexec
    refine ⟨_, hexec, heldBits_holding (s := { s with source := rest }) hshort, ?_⟩
    exact enter_of_runs (s := { s with source := rest }.holding s.wbuf bits) hrun
  · intro hbyte
    rw [hexec, putBits_holding_byte (length_heldBits_lt s) (by omega), hbits, Nat.zero_add, length_heldBits]
    rfl

/-- Settles O39: one step lemma of ENCODE per clause. -/
theorem encodeStartsAndEnds : Obligations.EncodeStartsAndEnds := by
  intro s
  refine ⟨exec_encode_of_noTable, exec_encode_of_table, fun rest hrun hsrc h0 => ?_, exec_of_ended_room (by simp),
    fun rest hrun hsrc => ?_, fun rest hrun hsrc => ?_⟩
  · rw [exec_encode_of_token hrun hsrc, encodeToken]
    exact congrArg Host.Outcome.next (pad_of_aligned (s := { s with source := rest }) h0)
  · rw [exec_encode_of_token hrun hsrc, encodeToken, raiseError_encode_truncatedStream, truncatedInfo_fail_encode]
    rfl
  · rw [exec_encode_of_token hrun hsrc, encodeToken, raiseError_encode_truncatedStream, truncatedInfo_rsvd_encode]
    rfl

end Sys2Proof.Machine

namespace Sys2Proof.Machine

/-! ## Rounds of the schedule `pump` (log 1) -/

/-- The state with other contents of OUT and another agenda: what the schedule changes beside the command. -/
def State.withOut (s : State) (sunk outq : List OutToken) (agenda : List Event) : State :=
  { s with sunk := sunk, outq := outq, agenda := agenda }

/-- Under `pump`, whatever OUT held before, the command goes from `s` to `t` and emits `out` on the way. -/
def PumpsTo (s : State) (out : List OutToken) (t : State) : Prop :=
  ∃ n, ∀ sunk outq later, outq.length ≤ Config.outCap → ∃ sunk' outq', outq'.length ≤ Config.outCap ∧
    sunk' ++ outq' = sunk ++ outq ++ out ∧
    ∀ m, runSteps (2 * n + m) (s.withOut sunk outq (pump n ++ later)) = runSteps m (t.withOut sunk' outq' later)

theorem pump_add (a b : Nat) : pump (a + b) = pump a ++ pump b := by
  rw [pump, List.replicate_add, List.flatten_append, pump, pump]

section Pump
variable {s t u : State} {out out' : List OutToken}

theorem PumpsTo.refl (s : State) : PumpsTo s [] s :=
  ⟨0, fun sunk outq later hcap => ⟨sunk, outq, hcap, by simp, fun m => by simp [pump]⟩⟩

theorem PumpsTo.trans (hst : PumpsTo s out t) (htu : PumpsTo t out' u) : PumpsTo s (out ++ out') u := by
  obtain ⟨a, ha⟩ := hst
  obtain ⟨b, hb⟩ := htu
  refine ⟨a + b, fun sunk outq later hcap => ?_⟩
  obtain ⟨sunk₁, outq₁, hcap₁, hout₁, hrun₁⟩ := ha sunk outq (pump b ++ later) hcap
  obtain ⟨sunk₂, outq₂, hcap₂, hout₂, hrun₂⟩ := hb sunk₁ outq₁ later hcap₁
  refine ⟨sunk₂, outq₂, hcap₂, by rw [hout₂, hout₁, List.append_assoc], fun m => ?_⟩
  rw [pump_add, List.append_assoc, Nat.mul_add, Nat.add_assoc, hrun₁, hrun₂]

/-- R72, R74: SINK's move leaves room in the OUT queue and loses no token. -/
theorem sinkTake_withOut (s : State) (sunk outq : List OutToken) (later : List Event)
    (hcap : outq.length ≤ Config.outCap) : ∃ sunk' outq', outq'.length < Config.outCap ∧
      sunk' ++ outq' = sunk ++ outq ∧ sinkTake (s.withOut sunk outq later) = s.withOut sunk' outq' later := by
  cases outq with
  | nil => exact ⟨sunk, [], Nat.succ_pos _, rfl, rfl⟩
  | cons tok rest => exact ⟨sunk ++ [tok], rest, hcap, by simp, rfl⟩

theorem step_withOut_cons (s : State) (sunk outq : List OutToken) (e : Event) (later : List Event) :
    step (s.withOut sunk outq (e :: later)) = move e (s.withOut sunk outq later) :=
  step_of_agenda_cons rfl

/-- One round: SINK's move and then an atomic step of the command that emits at most one token. -/
theorem PumpsTo.of_exec {i : Instr} {p : Phase} (hrun : Runs i p s) (hlen : out.length ≤ 1)
    (hexec : ∀ sunk outq later, hasRoom (s.withOut sunk outq later) →
      exec i (s.withOut sunk outq later) = .next (t.withOut sunk (outq ++ out) later)) : PumpsTo s out t := by
  refine ⟨1, fun sunk outq later hcap => ?_⟩
  obtain ⟨sunk', outq', hroom, hout, hsink⟩ := sinkTake_withOut s sunk outq (.engine :: later) hcap
  have hroom' : hasRoom (s.withOut sunk' outq' later) := hroom
  refine ⟨sunk', outq' ++ out, by simp; omega, by rw [← hout, List.append_assoc], fun m => ?_⟩
  have hmove : step (s.withOut sunk outq (pump 1 ++ later)) = .next (s.withOut sunk' outq' (.engine :: later)) :=
    (step_withOut_cons s sunk outq .sinkTake _).trans (congrArg Host.Outcome.next hsink)
  have hengine : step (s.withOut sunk' outq' (.engine :: later)) = .next (t.withOut sunk' (outq' ++ out) later) :=
    calc step (s.withOut sunk' outq' (.engine :: later))
      _ = engineStep (s.withOut sunk' outq' later) := step_withOut_cons s sunk' outq' .engine later
      _ = exec i (s.withOut sunk' outq' later) := engineStep_of_run hrun (decode_encode i)
      _ = .next (t.withOut sunk' (outq' ++ out) later) := hexec sunk' outq' later hroom'
  rw [Nat.add_comm, runSteps_of_step hmove, runSteps_of_step hengine]

/-- The run itself, from a state whose OUT queue is within its capacity. -/
theorem PumpsTo.runSteps (h : PumpsTo s out t) (hcap : s.outq.length ≤ Config.outCap) :
    ∃ n sunk outq, runSteps (2 * n) { s with agenda := pump n } = .next (t.withOut sunk outq []) ∧
      sunk ++ outq = emitted s ++ out := by
  obtain ⟨n, hn⟩ := h
  obtain ⟨sunk, outq, -, hout, hrun⟩ := hn s.sunk s.outq [] hcap
  have hrun := hrun 0
  rw [List.append_nil] at hrun
  exact ⟨n, sunk, outq, hrun, hout⟩

end Pump

/-! ## ENCODE's loops do not read OUT or the agenda -/

section WithOut
variable (sunk outq : List OutToken) (later : List Event) (s : State)

theorem putBits_withOut {f : Nat → Bool} {k : Nat → AfterOut} {go : State → State}
    (hgo : ∀ s : State, go (s.withOut sunk outq later) = (go s).withOut sunk outq later) (n j : Nat) :
    putBits f k go n j (s.withOut sunk outq later) = (putBits f k go n j s).withOut sunk outq later := by
  induction n generalizing j s with
  | zero => exact hgo s
  | succ n ih =>
    rw [putBits, putBits]
    obtain ⟨h7, hput⟩ | ⟨hne, hput⟩ := putBit_cases .encode (k j) (f j) (putBits f k go n (j + 1)) s
    · rw [hput]
      exact putBit_of_wcnt_eq (s := s.withOut sunk outq later) _ _ _ h7
    · rw [hput, ← ih]
      exact putBit_of_wcnt_ne (s := s.withOut sunk outq later) _ _ _ hne

theorem emitCode_withOut (d : Byte) (n j : Nat) :
    emitCode d n j (s.withOut sunk outq later) = (emitCode d n j s).withOut sunk outq later := by
  rw [emitCode_eq_putBits, emitCode_eq_putBits]
  exact putBits_withOut _ _ _ _ (fun _ => rfl) _ _

theorem pad_withOut : pad (s.withOut sunk outq later) = (pad s).withOut sunk outq later := by
  have hwcnt : (s.withOut sunk outq later).wcnt = s.wcnt := rfl
  have hlen : (s.withOut sunk outq later).len = s.len := rfl
  unfold pad
  rw [hwcnt, hlen]
  split
  · rfl
  · split
    · rfl
    · rw [emitPad_eq_putBits, emitPad_eq_putBits]
      exact putBits_withOut _ _ _ _ (fun _ => rfl) _ _

end WithOut

/-! ## ENCODE's rounds -/

section EncodeRounds
variable {s : State} {rest : List InToken}

theorem pumpsTo_encode_of_table (hrun : Runs .encode .start s) (h : s.tableValid = true) :
    PumpsTo s [] (enter .encode .inTake s) := by
  refine .of_exec hrun (Nat.zero_le _) fun sunk outq later _ => ?_
  rw [List.append_nil]
  exact exec_encode_of_table (s := s.withOut sunk outq later) hrun h

theorem pumpsTo_encode_of_byte {d : Byte} (hrun : Runs .encode .inTake s) (hsrc : s.source = .byte d :: rest) :
    PumpsTo s [] (emitCode d (lenAt s.len d) 0 { s with source := rest }) := by
  refine .of_exec hrun (Nat.zero_le _) fun sunk outq later _ => ?_
  rw [exec_encode_of_token (s := s.withOut sunk outq later) hrun hsrc, encodeToken, List.append_nil,
    ← emitCode_withOut]
  rfl

theorem pumpsTo_encode_of_endStream (hrun : Runs .encode .inTake s) (hsrc : s.source = .endStream :: rest) :
    PumpsTo s [] (pad { s with source := rest }) := by
  refine .of_exec hrun (Nat.zero_le _) fun sunk outq later _ => ?_
  rw [exec_encode_of_token (s := s.withOut sunk outq later) hrun hsrc, encodeToken, List.append_nil, ← pad_withOut]
  rfl

theorem pumpsTo_encode_of_codeBit {tok : OutToken} {d : Byte} {j : Nat}
    (hrun : Runs .encode (.outPut tok (.codeBit d j)) s) :
    PumpsTo s [tok] (emitCode d (lenAt s.len d - (j + 1)) (j + 1) (clearWrite s)) := by
  refine .of_exec hrun (le_refl _) fun sunk outq later hroom => ?_
  rw [exec_encode_of_codeBit_room (s := s.withOut sunk outq later) hrun hroom, ← emitCode_withOut]
  rfl

theorem pumpsTo_encode_of_padBit {tok : OutToken} (hrun : Runs .encode (.outPut tok .padBit) s) :
    PumpsTo s [tok] (enter .encode (.outPut .endStream .ended) (clearWrite s)) :=
  .of_exec hrun (le_refl _) fun sunk outq later hroom =>
    exec_encode_of_padBit_room (s := s.withOut sunk outq later) hrun hroom

theorem pumpsTo_encode_of_ended {tok : OutToken} (hrun : Runs .encode (.outPut tok .ended) s) :
    PumpsTo s [tok] (complete s) :=
  .of_exec hrun (le_refl _) fun sunk outq later hroom =>
    exec_of_ended_room (s := s.withOut sunk outq later) (by simp) hrun hroom

theorem pumpsTo_encode_of_aborted {tok : OutToken} {e : ErrorKind} {info : Word}
    (hrun : Runs .encode (.outPut tok (.aborted e info)) s) : PumpsTo s [tok] (latch e info s) :=
  .of_exec hrun (le_refl _) fun sunk outq later hroom =>
    exec_of_aborted_room (s := s.withOut sunk outq later) (by simp) hrun hroom

end EncodeRounds

end Sys2Proof.Machine

namespace Sys2Proof.Machine

/-! ## The padding symbol (43_encoder.md R182) -/

theorem padSymbol_eq_none {len : Vector Byte 256} {k : Nat} (h : ¬ padExists len k) : padSymbol len k = none := by
  refine List.findIdx?_eq_none_iff.mpr fun x hx => ?_
  obtain ⟨i, hi, rfl⟩ := List.mem_iff_getElem.mp hx
  have hi : i < 256 := by simpa using hi
  by_contra hlong
  exact h ⟨BitVec.ofNat 8 i, by simpa [lenAt, Nat.mod_eq_of_lt hi] using hlong⟩

theorem padSymbol_eq_some {len : Vector Byte 256} {k : Nat} {p : Byte} (hp : k < lenAt len p)
    (hleast : ∀ q < p, lenAt len q ≤ k) : padSymbol len k = some p.toNat := by
  refine List.findIdx?_eq_some_iff_getElem.mpr ⟨by simpa using p.isLt, by simpa [lenAt] using hp, fun j hj => ?_⟩
  have hlt := p.isLt
  have hq : (BitVec.ofNat 8 j).toNat = j := by simp; omega
  have := hleast (BitVec.ofNat 8 j) (BitVec.lt_def.mpr (hq.symm ▸ hj))
  simpa [lenAt, hq] using this

theorem exists_isPadding {len : Vector Byte 256} {k : Nat} (code : Vector Code 256) (h : k = 0 ∨ padExists len k) :
    ∃ pad, IsPadding len code k pad := by
  by_cases hk : k = 0
  · exact ⟨[], .inl ⟨hk, rfl⟩⟩
  · obtain ⟨p, hp, hleast⟩ := (measure BitVec.toNat).wf.has_min {x : Byte | k < lenAt len x} (h.resolve_left hk)
    exact ⟨_, .inr ⟨hk, p, hp, fun q hq => not_lt.mp fun hlong => hleast q hlong hq, rfl⟩⟩

theorem length_of_isPadding {len : Vector Byte 256} {code : Vector Code 256} {k : Nat} {pad : List Bool}
    (h : IsPadding len code k pad) : pad.length = k := by
  obtain ⟨rfl, rfl⟩ | ⟨-, p, hp, -, rfl⟩ := h
  · rfl
  · rw [List.length_take, length_codeString, Nat.min_eq_left hp.le]

theorem take_codeString (len : Vector Byte 256) (code : Vector Code 256) {p : Byte} {k : Nat} (h : k ≤ lenAt len p) :
    (codeString len code p).take k = (List.range' 0 k).map (codeBit (codeAt code p)) := by
  rw [codeString, ← List.map_take, List.take_range, Nat.min_eq_left h, List.range_eq_range']

theorem missingBits_lastBits (l : List Bool) : missingBits (lastBits l) = missingBits l := by
  rw [missingBits, length_lastBits, Nat.mod_mod, missingBits]

/-- R187: with its padding a bit string fills whole bytes. -/
theorem length_packBytes_append_padding {l pad : List Bool} (h : pad.length = missingBits l) :
    (packBytes (l ++ pad)).length = (l.length + 7) / 8 := by
  rw [length_packBytes, List.length_append, h, missingBits]
  omega

/-! ## The code of one symbol under the pump (43_encoder.md R181) -/

/-- The code bits that complete the byte held: it comes out, and ENCODE goes on with the rest of the code. -/
theorem pumpsTo_emitCode_flush {d : Byte} {m j : Nat} (s : State) {l : List Bool} (h : l.length < 8)
    (hm : j + (8 - l.length + m) = lenAt s.len d) {byte : List Bool}
    (hbyte : byte = l ++ (List.range' j (8 - l.length)).map (codeBit (codeAt s.code d))) :
    ∃ p, PumpsTo (emitCode d (8 - l.length + m) j (s.holding 0#8 l)) [.byte (bitsByte byte)]
      (emitCode d m (j + (8 - l.length)) ((enter .encode p s).holding 0#8 [])) := by
  have hlen : byte.length = 8 := by simp [hbyte]; omega
  have htake : (l ++ (List.range' j (8 - l.length + m)).map (codeBit (codeAt s.code d))).take 8 = byte := by
    rw [← List.range'_append_1, List.map_append, ← List.append_assoc, ← hbyte, List.take_left' hlen]
  have hleft : lenAt s.len d - (j + (7 - l.length) + 1) = m := by omega
  have hpos : j + (7 - l.length) + 1 = j + (8 - l.length) := by omega
  refine ⟨.outPut (.byte (bitsByte byte)) (.codeBit d (j + (7 - l.length))), ?_⟩
  rw [emitCode_eq_putBits, holding_code, putBits_holding_byte h (by omega), htake, holding_nil, ← hleft, ← hpos]
  exact pumpsTo_encode_of_codeBit rfl

/-- The bytes that the bits held and the code bits from `j` on fill come out, and the last bits stay held. -/
theorem pumpsTo_emitCode {d : Byte} {n j : Nat} (s : State) {l : List Bool} (h : l.length < 8)
    (hn : j + n = lenAt s.len d) {bits : List Bool}
    (hbits : bits = l ++ (List.range' j n).map (codeBit (codeAt s.code d))) :
    PumpsTo (emitCode d n j (s.holding 0#8 l)) ((packBytes bits).map .byte)
      (enter .encode .inTake (s.holding 0#8 (lastBits bits))) := by
  induction n using Nat.strong_induction_on generalizing s l j bits with
  | _ n ih =>
    by_cases hshort : l.length + n < 8
    · have hlen : bits.length < 8 := by simpa [hbits] using hshort
      have hemit : emitCode d n j (s.holding 0#8 l) = enter .encode .inTake (s.holding 0#8 bits) := by
        rw [emitCode_eq_putBits, holding_code, putBits_holding_short hshort, hbits]
      rw [hemit, packBytes_of_short hlen, lastBits_of_short hlen]
      exact .refl _
    · obtain ⟨m, rfl⟩ : ∃ m, n = (8 - l.length) + m := ⟨n - (8 - l.length), by omega⟩
      obtain ⟨p, hflush⟩ := pumpsTo_emitCode_flush s h hn rfl
      have hrest := ih m (by omega) (enter .encode p s) (l := []) (j := j + (8 - l.length)) (by simp)
        (by simpa [Nat.add_assoc] using hn) rfl
      rw [List.nil_append] at hrest
      rw [hbits, ← List.range'_append_1, List.map_append, ← List.append_assoc,
        packBytes_append_of_byte (by simp; omega), lastBits_append_of_byte (by simp; omega)]
      exact hflush.trans hrest

/-- ENCODE stands at InTake with the tokens `src` offered and the bits `l` held. -/
def State.encoding (s : State) (src : List InToken) (l : List Bool) : State :=
  enter .encode .inTake ({ s with source := src }.holding 0#8 l)

/-- Once a token is taken, `src` is offered and the bits are held as before. -/
theorem encoding_take (s : State) (t : InToken) (src : List InToken) (l : List Bool) :
    { s.encoding (t :: src) l with source := src } =
      (enter .encode .inTake { s with source := src }).holding 0#8 l := rfl

theorem pumpsTo_encoding_byte (s : State) (d : Byte) (src : List InToken) {l : List Bool} (h : l.length < 8) :
    PumpsTo (s.encoding (.byte d :: src) l) ((packBytes (l ++ codeString s.len s.code d)).map .byte)
      (s.encoding src (lastBits (l ++ codeString s.len s.code d))) := by
  have htake := pumpsTo_encode_of_byte (s := s.encoding (.byte d :: src) l) rfl rfl
  rw [encoding_take] at htake
  have hemit := pumpsTo_emitCode (d := d) (n := lenAt s.len d) (enter .encode .inTake { s with source := src }) h
    (Nat.zero_add _) (congrArg (l ++ ·) (codeString_eq_range' s.len s.code d))
  exact htake.trans hemit

theorem pumpsTo_encoding_input (s : State) (input : List Byte) (src : List InToken) {l : List Bool}
    (h : l.length < 8) :
    PumpsTo (s.encoding (input.map .byte ++ src) l)
      ((packBytes (l ++ input.flatMap (codeString s.len s.code))).map .byte)
      (s.encoding src (lastBits (l ++ input.flatMap (codeString s.len s.code)))) := by
  induction input generalizing l with
  | nil =>
    rw [List.flatMap_nil, List.append_nil, packBytes_of_short h, lastBits_of_short h]
    exact .refl _
  | cons d input ih =>
    rw [List.flatMap_cons, ← List.append_assoc, packBytes_append, lastBits_append (l ++ _), List.map_append]
    have hbyte := pumpsTo_encoding_byte s d (input.map .byte ++ src) h
    exact hbyte.trans (ih (length_lastBits_lt _))

/-- The whole input, from ENCODE's start to its END token. -/
theorem pumpsTo_encode_input {s : State} {input : List Byte} {rest : List InToken} (hrun : Runs .encode .start s)
    (htable : s.tableValid = true) (hclean : WriteClean s) (hsrc : s.source = input.map .byte ++ .endStream :: rest)
    {bits : List Bool} (hbits : bits = heldBits s ++ input.flatMap (codeString s.len s.code)) :
    PumpsTo s ((packBytes bits).map .byte)
      (pad ((enter .encode .inTake { s with source := rest }).holding 0#8 (lastBits bits))) := by
  have hstart : enter .encode .inTake s = s.encoding (input.map .byte ++ .endStream :: rest) (heldBits s) := by
    rw [← hsrc]
    exact congrArg (enter .encode .inTake) hclean.holding_heldBits.symm
  have hinput := (pumpsTo_encode_of_table hrun htable).trans
    (hstart ▸ pumpsTo_encoding_input s input (.endStream :: rest) (length_heldBits_lt s))
  have hend := pumpsTo_encode_of_endStream (s := s.encoding (.endStream :: rest) (lastBits bits)) rfl rfl
  rw [encoding_take] at hend
  rw [hbits] at hend ⊢
  simpa using hinput.trans hend

/-! ## The padding under the pump (43_encoder.md R182, R183) -/

theorem missingBits_of_short {l : List Bool} (h : l.length < 8) (hne : missingBits l ≠ 0) :
    l.length ≠ 0 ∧ missingBits l = 8 - l.length := by
  rw [missingBits] at hne ⊢
  omega

theorem pad_holding_of_padSymbol {s : State} {l : List Bool} {p : Byte} (h : l.length < 8) (hne : l.length ≠ 0)
    (hp : padSymbol s.len (8 - l.length) = some p.toNat) (hlong : 8 - l.length ≤ lenAt s.len p) :
    pad (s.holding 0#8 l) =
      enter .encode (.outPut (.byte (bitsByte (l ++ (codeString s.len s.code p).take (8 - l.length)))) .padBit)
        { s with wbuf := bitsByte (l ++ (codeString s.len s.code p).take (8 - l.length)), wcnt := 7#3 } := by
  have htake : (l ++ (codeString s.len s.code p).take (8 - l.length)).take 8 =
      l ++ (codeString s.len s.code p).take (8 - l.length) :=
    List.take_of_length_le (by simp; omega)
  have hemit : pad (s.holding 0#8 l) = emitPad p (8 - l.length) 0 (s.holding 0#8 l) := by
    rw [pad, if_neg (wcnt_holding_ne h (by omega) hne), toNat_wcnt_holding h, holding_len, hp]
    simp
  rw [hemit, emitPad_eq_putBits, putBits_holding_byte h (by omega), holding_code,
    ← take_codeString s.len _ hlong, htake]

theorem pad_holding_of_noPadSymbol {s : State} {l : List Bool} (h : l.length < 8) (hne : l.length ≠ 0)
    (hp : padSymbol s.len (8 - l.length) = none) :
    pad (s.holding 0#8 l) =
      enter .encode (.outPut .abort (.aborted .unalignedWriteClose (BitVec.ofNat 32 l.length)))
        (s.holding 0#8 l) := by
  have hinfo : (s.holding 0#8 l).wcnt.setWidth 32 = BitVec.ofNat 32 l.length :=
    BitVec.eq_of_toNat_eq (by simp [toNat_wcnt_holding h])
  rw [pad, if_neg (wcnt_holding_ne h (by omega) hne), toNat_wcnt_holding h, holding_len, hp, ← hinfo]
  exact raiseError_of_abortsStream (by decide) _ _

theorem pumpsTo_pad {s : State} {l padding : List Bool} (h : l.length < 8)
    (hpad : IsPadding s.len s.code (missingBits l) padding) :
    PumpsTo (pad (s.holding 0#8 l)) ((packBytes (l ++ padding)).map .byte ++ [.endStream])
      (complete (clearWrite s)) := by
  obtain ⟨h0, rfl⟩ | ⟨hne, p, hlong, hleast, hbits⟩ := hpad
  · obtain rfl : l = [] := List.eq_nil_of_length_eq_zero (by rw [missingBits] at h0; omega)
    rw [holding_nil, pad_of_aligned rfl]
    exact pumpsTo_encode_of_ended rfl
  · obtain ⟨hpos, hmiss⟩ := missingBits_of_short h hne
    rw [hmiss] at hlong hleast hbits
    have hbyte : (l ++ padding).length = 8 := by
      rw [hbits, List.length_append, List.length_take, length_codeString]
      omega
    have hbytes : packBytes (l ++ padding) = [bitsByte (l ++ padding)] := by
      simpa [packBytes_of_short] using packBytes_append_of_byte hbyte []
    rw [pad_holding_of_padSymbol h hpos (padSymbol_eq_some hlong hleast) hlong.le, ← hbits, hbytes]
    refine (pumpsTo_encode_of_padBit ?_).trans (out := [_]) (pumpsTo_encode_of_ended ?_)
    · rfl
    · rfl

theorem pumpsTo_pad_abort {s : State} {l : List Bool} (h : l.length < 8) (hne : missingBits l ≠ 0)
    (hno : ¬ padExists s.len (missingBits l)) :
    PumpsTo (pad (s.holding 0#8 l)) [.abort]
      (latch .unalignedWriteClose (BitVec.ofNat 32 l.length) (s.holding 0#8 l)) := by
  obtain ⟨hpos, hmiss⟩ := missingBits_of_short h hne
  rw [hmiss] at hno
  rw [pad_holding_of_noPadSymbol h hpos (padSymbol_eq_none hno)]
  exact pumpsTo_encode_of_aborted rfl

/-! ## The whole stream -/

/-- ENCODE's start is no flush. -/
theorem writeClean_of_start {s : State} (h : WriteCursorOk s) (hrun : Runs .encode .start s) : WriteClean s := by
  have heng : s.engine = .run (encode .encode) .start := hrun
  exact h.resolve_left (by simp [inFlush, heng])

/-- Settles O41: the rounds of the input, and then those of its padding. -/
theorem encodeEmitsThePackedStream : Obligations.EncodeEmitsThePackedStream := by
  intro s input rest bits hrun htable hcursor hcap hsrc hpadding
  obtain ⟨padding, hpad⟩ := exists_isPadding s.code hpadding
  have hinput := pumpsTo_encode_input hrun htable (writeClean_of_start hcursor hrun) hsrc (bits := bits) rfl
  have hend := pumpsTo_pad (s := enter .encode .inTake { s with source := rest }) (length_lastBits_lt bits)
    (by rwa [missingBits_lastBits])
  obtain ⟨n, sunk, outq, hsteps, hout⟩ := (hinput.trans hend).runSteps hcap
  refine ⟨padding, n, _, hpad, length_packBytes_append_padding (length_of_isPadding hpad), hsteps, ?_, rfl⟩
  rw [packBytes_append, List.map_append, List.append_assoc, List.append_assoc]
  exact hout

/-- Settles O42: the rounds of the input, and then the raise at OutPut(ABORT). -/
theorem encodeWithoutPaddingAborts : Obligations.EncodeWithoutPaddingAborts := by
  intro s input rest bits hrun htable hcursor hcap hsrc hne hno
  have hinput := pumpsTo_encode_input hrun htable (writeClean_of_start hcursor hrun) hsrc (bits := bits) rfl
  have hend := pumpsTo_pad_abort (s := enter .encode .inTake { s with source := rest }) (length_lastBits_lt bits)
    (by rwa [missingBits_lastBits]) (by rwa [missingBits_lastBits])
  obtain ⟨n, sunk, outq, hsteps, hout⟩ := (hinput.trans hend).runSteps hcap
  rw [length_lastBits] at hsteps
  refine ⟨n, _, hsteps, ?_, heldBits_holding (s := s) (length_lastBits_lt bits), rfl⟩
  rw [List.append_assoc]
  exact hout

end Sys2Proof.Machine

namespace Sys2Proof.Machine

/-! ## Walks bit by bit (44_decoder.md R201, R202) -/

/-- The walk stands at a node it can leave. -/
def Internal (a : Vector Node 511) (i : NodeIx) : Prop := ∃ n, nodeAt a i = some n ∧ n.internal = true

section Walk
variable {a : Vector Node 511} {i j c : NodeIx} {b : Bool} {m : Node} {l : List Bool}

theorem walkBit_child {n : Node} (hn : nodeAt a i = some n) (hm : nodeAt a (n.child b) = some m) :
    walkBit a i b = some (n.child b, m) := by
  simp [walkBit, hn, hm]

/-- R201: on a passing arena every bit leads on. -/
theorem exists_walkBit (hpass : treeCheck a = none) (hi : Internal a i) (b : Bool) :
    ∃ c m, walkBit a i b = some (c, m) := by
  obtain ⟨n, hn, hint⟩ := hi
  obtain ⟨-, hle⟩ := child_of_treeCheck hpass hn hint b
  exact ⟨_, _, walkBit_child hn ((nodeAt_eq_some ..).mpr ⟨by omega, rfl⟩)⟩

theorem internal_of_walkBit (h : walkBit a i b = some (c, m)) (hint : m.internal = true) : Internal a c :=
  ⟨m, nodeAt_of_walkBit h, hint⟩

/-- A walk starts at a node of the arena. -/
theorem exists_nodeAt_of_walkTo (h : walkTo a i l = some j) : ∃ n, nodeAt a i = some n := by
  cases l with
  | nil => exact ((walkTo_nil_eq_some_iff a i j).mp h).1
  | cons e l =>
    obtain ⟨n, hn, -⟩ := (walkTo_cons_eq_some_iff a i j e l).mp h
    exact ⟨n, hn⟩

/-- A walk's first bit is a bit of the decoder's walk; a walk that goes on after it leaves an internal node. -/
theorem walkBit_of_walkTo_cons (h : walkTo a i (b :: l) = some j) :
    ∃ c m, walkBit a i b = some (c, m) ∧ walkTo a c l = some j ∧ (l ≠ [] → m.internal = true) := by
  obtain ⟨n, hn, -, hrest⟩ := (walkTo_cons_eq_some_iff a i j b l).mp h
  obtain ⟨m, hm⟩ := exists_nodeAt_of_walkTo hrest
  refine ⟨_, m, walkBit_child hn hm, hrest, fun hne => ?_⟩
  obtain ⟨e, r, rfl⟩ := List.exists_cons_of_ne_nil hne
  obtain ⟨m', hm', hint, -⟩ := (walkTo_cons_eq_some_iff ..).mp hrest
  exact Option.some.inj (hm'.symm.trans hm) ▸ hint

end Walk

/-! ## The loop over the bits of RBUF (42_bit_stream.md R161, 44_decoder.md R200) -/

/-- The last `n` bits of a byte, first bit first: what is left of RBUF with `n` bits not yet delivered. -/
def lowBits (d : Byte) (n : Nat) : List Bool := (byteBits d).drop (8 - n)

theorem lowBits_zero (d : Byte) : lowBits d 0 = [] := List.drop_eq_nil_of_le (length_byteBits d).le

theorem length_lowBits (d : Byte) {n : Nat} (hn : n ≤ 8) : (lowBits d n).length = n := by
  rw [lowBits, List.length_drop, length_byteBits]
  omega

/-- R161: of the `n + 1` bits left GetBit delivers the first. -/
theorem lowBits_succ (s : State) {n : Nat} (hn : n < 8) :
    lowBits s.rbuf (n + 1) = nextBit n s :: lowBits s.rbuf n := by
  have hlen : 8 - (n + 1) < (byteBits s.rbuf).length := by rw [length_byteBits]; omega
  have hbit : (byteBits s.rbuf)[8 - (n + 1)] = nextBit n s := by
    have hpos : 7 - (7 - n) = n := by omega
    have hlt : 7 - n < 8 := by omega
    simp [byteBits, nextBit, BitVec.getMsbD, hpos, hlt]
  have hnext : 8 - (n + 1) + 1 = 8 - n := by omega
  rw [lowBits, List.drop_eq_getElem_cons hlen, hbit, hnext, lowBits]

/-- DECODE offers the symbol `x` of the leaf `i`, with `n` bits left (R200). -/
def State.offering (s : State) (n : Nat) (i : NodeIx) (x : Byte) : State :=
  enter .decode (.outPut (.byte x) .symbol) { setRcnt n s with dstate := i }

/-- DECODE waits for a token with the walk at node `i`, no bit left (R200). -/
def State.awaiting (s : State) (i : NodeIx) : State := enter .decode .inTake { setRcnt 0 s with dstate := i }

section DecodeBits
variable {s t : State} {n : Nat} {c j : NodeIx} {m : Node}

theorem decodeBits_succ_of_internal (h : walkBit s.node s.dstate (nextBit n s) = some (c, m))
    (hint : m.internal = true) : decodeBits (n + 1) s = decodeBits n { setRcnt n s with dstate := c } := by
  rw [decodeBits, h]
  exact if_pos hint

theorem decodeBits_succ_of_leaf (h : walkBit s.node s.dstate (nextBit n s) = some (c, m))
    (hleaf : m.internal = false) :
    decodeBits (n + 1) s = .next (s.offering n c m.symbol) := by
  rw [decodeBits, h]
  exact if_neg (by simp [hleaf])

/-- R200, R202: the walk of `k + 1` bits ends at a leaf. -/
theorem decodeBits_of_walkTo_leaf (hn : n ≤ 8) {k : Nat} (hk : k < n)
    (hwalk : walkTo s.node s.dstate ((lowBits s.rbuf n).take (k + 1)) = some j) (hj : nodeAt s.node j = some m)
    (hleaf : m.internal = false) :
    decodeBits n s = .next (s.offering (n - 1 - k) j m.symbol) := by
  induction n generalizing k s with
  | zero => omega
  | succ n ih =>
    rw [lowBits_succ _ hn, List.take_succ_cons] at hwalk
    obtain ⟨c, m', hbit, hrest, hint⟩ := walkBit_of_walkTo_cons hwalk
    cases k with
    | zero =>
      obtain ⟨-, rfl⟩ := (walkTo_nil_eq_some_iff ..).mp hrest
      obtain rfl : m' = m := Option.some.inj ((nodeAt_of_walkBit hbit).symm.trans hj)
      exact decodeBits_succ_of_leaf hbit hleaf
    | succ k =>
      have hne : (lowBits s.rbuf n).take (k + 1) ≠ [] :=
        List.ne_nil_of_length_pos (by rw [List.length_take, length_lowBits _ (by omega)]; omega)
      rw [decodeBits_succ_of_internal hbit (hint hne),
        ih (s := { setRcnt n s with dstate := c }) (by omega) (by omega) hrest hj,
        show n + 1 - 1 - (k + 1) = n - 1 - k by omega]
      rfl

/-- R200, R203: the walk of all the bits left ends at an internal node. -/
theorem decodeBits_of_walkTo_internal (hn : n ≤ 8)
    (hwalk : walkTo s.node s.dstate (lowBits s.rbuf n) = some j) (hj : nodeAt s.node j = some m)
    (hint : m.internal = true) : decodeBits n s = .next (s.awaiting j) := by
  induction n generalizing s with
  | zero =>
    rw [lowBits_zero] at hwalk
    obtain ⟨-, rfl⟩ := (walkTo_nil_eq_some_iff ..).mp hwalk
    rfl
  | succ n ih =>
    rw [lowBits_succ _ hn] at hwalk
    obtain ⟨c, m', hbit, hrest, hmore⟩ := walkBit_of_walkTo_cons hwalk
    have hint' : m'.internal = true := by
      by_cases hnil : lowBits s.rbuf n = []
      · rw [hnil] at hrest
        obtain ⟨-, rfl⟩ := (walkTo_nil_eq_some_iff ..).mp hrest
        exact Option.some.inj (hj.symm.trans (nodeAt_of_walkBit hbit)) ▸ hint
      · exact hmore hnil
    rw [decodeBits_succ_of_internal hbit hint', ih (s := { setRcnt n s with dstate := c }) (by omega) hrest hj]
    rfl

end DecodeBits

/-! ## DECODE's atomic steps (44_decoder.md R200) -/

section DecodeSteps
variable {s : State} {tok : OutToken}

theorem exec_decode_of_pass (hrun : Runs .decode .start s) (hpass : treeCheck s.node = none) :
    exec .decode s = decodeBits s.rcnt.toNat { s with treeValid := true, dstate := Config.root } := by
  rw [exec, execDecode, phase_of_runs hrun]
  exact checkedTree_pass hpass

theorem exec_decode_of_token {t : InToken} {rest : List InToken} (hrun : Runs .decode .inTake s)
    (hsrc : s.source = t :: rest) : exec .decode s = decodeToken t { s with source := rest } := by
  rw [exec, execDecode, phase_of_runs hrun]
  exact inTake_cons hsrc

theorem exec_decode_of_symbol_room (hrun : Runs .decode (.outPut tok .symbol) s) (hroom : hasRoom s) :
    exec .decode s = decodeBits s.rcnt.toNat { s with outq := s.outq ++ [tok], dstate := Config.root } := by
  rw [exec, execDecode, phase_of_runs hrun]
  exact outPut_room hroom

theorem raiseError_decode_truncatedStream (info : Word) (s : State) :
    raiseError (some .decode) .truncatedStream info s =
      enter .decode (.outPut .abort (.aborted .truncatedStream info)) s :=
  raiseError_of_abortsStream (by decide) info s

theorem truncatedInfo_fail_decode : truncatedInfo (inKind .fail) (opcode .decode) = 0x00000205#32 := by decide

theorem truncatedInfo_rsvd_decode : truncatedInfo (inKind .rsvd) (opcode .decode) = 0x00000305#32 := by decide

end DecodeSteps

/-- Settles O43: one step lemma of DECODE per clause. -/
theorem decodeStartsAndEnds : Obligations.DecodeStartsAndEnds := by
  intro s
  refine ⟨fun hrun hpass h0 => ?_, fun rest hrun hsrc => ?_, exec_of_ended_room (by simp), fun rest hrun hsrc => ?_,
    fun rest hrun hsrc => ?_⟩
  · have hempty : { s with rcnt := 0#3 } = s := by rw [← h0]
    rw [exec_decode_of_pass hrun hpass, h0, ← hempty]
    rfl
  · rw [exec_decode_of_token hrun hsrc]
    rfl
  · rw [exec_decode_of_token hrun hsrc, decodeToken, raiseError_decode_truncatedStream, truncatedInfo_fail_decode]
    rfl
  · rw [exec_decode_of_token hrun hsrc, decodeToken, raiseError_decode_truncatedStream, truncatedInfo_rsvd_decode]
    rfl

/-- Settles O44: the loop over the eight bits of the byte just loaded. -/
theorem decodeTakesOneByte : Obligations.DecodeTakesOneByte := by
  intro s d rest hrun hsrc
  rw [exec_decode_of_token hrun hsrc, decodeToken]
  refine ⟨fun k j n hk hwalk hj hleaf => ?_, fun j n hwalk hj hint => ?_⟩
  · exact decodeBits_of_walkTo_leaf (s := loadByte d { s with source := rest }) (le_refl 8) hk hwalk hj hleaf
  · rw [decodeBits_of_walkTo_internal (s := loadByte d { s with source := rest }) (le_refl 8) hwalk hj hint]
    exact congrArg Host.Outcome.next
      (enter_of_runs (s := { s with source := rest, rbuf := d, rcnt := 0#3, dstate := j }) hrun)

end Sys2Proof.Machine

namespace Sys2Proof.Machine

/-! ## Under the invariant every command has a next state (44_decoder.md R201, 10_state.md R37) -/

theorem exists_next_inTake {k : InToken → State → Result} {s : State}
    (hk : ∀ tok rest, ∃ t, k tok { s with source := rest } = .next t) : ∃ t, inTake k s = .next t := by
  cases hsrc : s.source with
  | nil => exact ⟨s, inTake_nil hsrc⟩
  | cons tok rest => exact inTake_cons hsrc ▸ hk tok rest

theorem exists_next_outPut {tok : OutToken} {k : State → Result} {s : State}
    (hk : ∃ t, k { s with outq := s.outq ++ [tok] } = .next t) : ∃ t, outPut tok k s = .next t := by
  by_cases hroom : hasRoom s
  · exact outPut_room hroom ▸ hk
  · exact ⟨s, outPut_full hroom⟩

theorem exists_next_checkedTree {i : Instr} {k : State → Result} {s : State}
    (hk : treeCheck s.node = none → ∃ t, k (validity .checkPasses s) = .next t) :
    ∃ t, checkedTree i k s = .next t := by
  cases hcheck : treeCheck s.node with
  | none => exact checkedTree_pass hcheck ▸ hk hcheck
  | some x => exact ⟨_, checkedTree_fail hcheck⟩

/-- R201: on a passing arena the walk never comes to a node that does not exist. -/
theorem exists_next_decodeBits {s : State} (hpass : treeCheck s.node = none) (hint : Internal s.node s.dstate)
    (n : Nat) : ∃ t, decodeBits n s = .next t := by
  induction n generalizing s with
  | zero => exact ⟨_, rfl⟩
  | succ n ih =>
    obtain ⟨c, m, hbit⟩ := exists_walkBit hpass hint (nextBit n s)
    cases hm : m.internal with
    | false => exact ⟨_, decodeBits_succ_of_leaf hbit hm⟩
    | true =>
      rw [decodeBits_succ_of_internal hbit hm]
      exact ih (s := { setRcnt n s with dstate := c }) hpass (internal_of_walkBit hbit hm)

section Commands
variable {p : Phase} {s : State}

theorem exists_next_execWbit {b : Bool} (hp : s.phase = p) (hok : PhaseOk s (.wbit b) p) :
    ∃ t, execWbit b s = .next t := by
  rw [execWbit, hp]
  cases p with
  | start => exact ⟨_, rfl⟩
  | inTake => exact hok.elim
  | outPut tok k =>
    obtain ⟨rfl, -⟩ := hok
    exact exists_next_outPut ⟨_, rfl⟩

theorem exists_next_execWclose (hp : s.phase = p) (hok : PhaseOk s .wclose p) : ∃ t, execWclose s = .next t := by
  rw [execWclose, hp]
  cases p with
  | start =>
    by_cases h0 : s.wcnt = 0#3
    · exact ⟨_, if_pos h0⟩
    · exact ⟨_, if_neg h0⟩
  | inTake => exact hok.elim
  | outPut tok k =>
    cases k with
    | ended | aborted => exact exists_next_outPut ⟨_, rfl⟩
    | bitWritten | codeBit | padBit | symbol => exact hok.elim

theorem exists_next_execRbit (hp : s.phase = p) (hok : PhaseOk s .rbit p) : ∃ t, execRbit s = .next t := by
  rw [execRbit, hp]
  cases p with
  | start => cases hn : s.rcnt.toNat <;> exact ⟨_, rfl⟩
  | inTake => exact exists_next_inTake fun tok rest => by cases tok <;> exact ⟨_, rfl⟩
  | outPut tok k => exact hok.elim

theorem exists_next_execEncode (hp : s.phase = p) (hok : PhaseOk s .encode p) : ∃ t, execEncode s = .next t := by
  rw [execEncode, hp]
  cases p with
  | start =>
    by_cases htable : s.tableValid = true
    · exact ⟨_, if_pos htable⟩
    · exact ⟨_, if_neg htable⟩
  | inTake => exact exists_next_inTake fun tok rest => by cases tok <;> exact ⟨_, rfl⟩
  | outPut tok k =>
    obtain ⟨-, hok⟩ := hok
    cases k with
    | codeBit | padBit | ended | aborted => exact exists_next_outPut ⟨_, rfl⟩
    | bitWritten | symbol => exact hok.elim

/-- The walk starts at the root of an arena that passes, or goes on from the internal node it stood at. -/
theorem exists_next_execDecode (hval : ValidityOk s) (hp : s.phase = p) (hok : PhaseOk s .decode p) :
    ∃ t, execDecode s = .next t := by
  rw [execDecode, hp]
  cases p with
  | start =>
    exact exists_next_checkedTree fun hpass => exists_next_decodeBits
      (s := { validity .checkPasses s with dstate := Config.root }) hpass (root_internal_of_treeCheck hpass) _
  | inTake =>
    obtain ⟨hvalid, -, hint⟩ := hok
    refine exists_next_inTake fun tok rest => ?_
    cases tok with
    | byte d => exact exists_next_decodeBits (s := loadByte d { s with source := rest }) (hval.2 hvalid) hint 8
    | endStream | fail | rsvd => exact ⟨_, rfl⟩
  | outPut tok k =>
    obtain ⟨hvalid, hok⟩ := hok
    have hpass := hval.2 hvalid
    cases k with
    | symbol =>
      exact exists_next_outPut (exists_next_decodeBits
        (s := { s with outq := s.outq ++ [tok], dstate := Config.root }) hpass (root_internal_of_treeCheck hpass) _)
    | ended | aborted => exact exists_next_outPut ⟨_, rfl⟩
    | bitWritten | codeBit | padBit => exact hok.elim

theorem exists_next_execCheck (s : State) : ∃ t, execCheck s = .next t := exists_next_checkedTree fun _ => ⟨_, rfl⟩

theorem exists_next_execExtract (s : State) : ∃ t, execExtract s = .next t := by
  refine exists_next_checkedTree fun _ => ?_
  split <;> exact ⟨_, rfl⟩

theorem exists_next_exec {i : Instr} (h : MachineInv s) (hrun : Runs i p s) : ∃ t, exec i s = .next t := by
  have hp := phase_of_runs hrun
  have hok := h.phaseOk hrun
  cases i with
  | nop | build | clear => exact ⟨_, rfl⟩
  | check => exact exists_next_execCheck s
  | extract => exact exists_next_execExtract s
  | encode => exact exists_next_execEncode hp hok
  | decode => exact exists_next_execDecode h.validity hp hok
  | wbit b => exact exists_next_execWbit hp hok
  | wclose => exact exists_next_execWclose hp hok
  | rbit => exact exists_next_execRbit hp hok

end Commands

/-! ## What a step from the invariant can end in (20_memory.md R61, 10_state.md R48) -/

theorem exists_next_engineStep {s : State} (h : MachineInv s) : ∃ t, engineStep s = .next t := by
  cases heng : s.engine with
  | idle => exact ⟨s, by simp [engineStep, fetch, heng]⟩
  | run w p =>
    obtain ⟨i, hdec, -⟩ := h.engine w p heng
    have hrun : Runs i p s := by rw [Runs, ← eq_encode_of_decode hdec, heng]
    rw [engineStep_of_run heng hdec]
    exact exists_next_exec h hrun

/-- R96: a statement's access, if it makes one, is a read or a write of a register. -/
theorem stmtAccess_eq_some {st : HostStmt} {a : HostAccess} (h : stmtAccess st = some a) :
    ∃ r, a = readReg r ∨ ∃ v, a = writeRegAccess r v := by
  cases st with
  | rd r _ => exact ⟨_, .inl (Option.some.inj h).symm⟩
  | wait => exact ⟨_, .inl (Option.some.inj h).symm⟩
  | wr | cmd | run | ldw | ldnInternal | ldnLeaf | srst | ack => exact ⟨_, .inr ⟨_, (Option.some.inj h).symm⟩⟩
  | expect | inTokens | outTokens => simp [stmtAccess] at h

theorem exists_next_hostMove (s : State) : ∃ t, hostMove s = .next t := by
  cases hprog : s.program with
  | nil => exact ⟨s, hostMove_nil hprog⟩
  | cons st rest =>
    cases ha : stmtAccess st with
    | none => exact ⟨_, hostMove_of_no_access hprog ha⟩
    | some a =>
      rw [hostMove_of_access hprog ha]
      obtain ⟨r, rfl | ⟨v, rfl⟩⟩ := stmtAccess_eq_some ha
      · exact ⟨_, hostAccess_readReg r _⟩
      · exact ⟨_, hostAccess_writeRegAccess r v _⟩

/-- R61: of all moves only an access that the agenda names can be refused. -/
theorem exists_next_move {s : State} (h : MachineInv s) {e : Event} (he : ∀ a, e = .host a → a.wf = true) :
    ∃ t, move e s = .next t := by
  cases e with
  | engine => exact exists_next_engineStep h
  | host a =>
    obtain ⟨hbad, -⟩ | ⟨-, -, hr⟩ | ⟨-, v, -, hr⟩ := hostAccess_cases a s
    · simp [he a rfl] at hbad
    · exact ⟨_, hr⟩
    · exact ⟨_, hr⟩
  | hostStmt => exact exists_next_hostMove s
  | offer tok => exact ⟨_, rfl⟩
  | sinkTake => exact ⟨_, rfl⟩

theorem step_next_or_refused {s : State} (h : MachineInv s) :
    (∃ t, step s = .next t) ∨
      ∃ a rest, s.agenda = .host a :: rest ∧ a.wf = false ∧ ∃ r, step s = .refused r := by
  cases hag : s.agenda with
  | nil => exact .inl (step_of_agenda_nil hag ▸ exists_next_engineStep h)
  | cons e rest =>
    rw [step_of_agenda_cons hag]
    by_cases he : ∀ a, e = .host a → a.wf = true
    · have hpop : OnlyEnvironmentChanged s { s with agenda := rest } := ⟨rfl, le_refl _⟩
      exact .inl (exists_next_move (h.of_onlyEnvironmentChanged hpop) he)
    · push Not at he
      obtain ⟨a, rfl, hbad⟩ := he
      refine .inr ⟨a, rest, rfl, by simpa using hbad, ?_⟩
      obtain ⟨-, hr | hr⟩ | ⟨hok, -⟩ | ⟨hok, -⟩ := hostAccess_cases a { s with agenda := rest }
      · exact ⟨_, hr⟩
      · exact ⟨_, hr⟩
      · exact absurd hok hbad
      · exact absurd hok hbad

/-- Settles O49. -/
theorem invariantRulesOutFaults : Obligations.InvariantRulesOutFaults := by
  intro s h
  obtain ⟨t, ht⟩ | ⟨a, rest, hag, hbad, r, hr⟩ := step_next_or_refused h
  · simp [ht]
  · exact ⟨by simp [hr], fun _ _ => ⟨a, rest, hag, hbad⟩⟩

end Sys2Proof.Machine

namespace Sys2Proof.Machine

/-! ## The walk over a whole bit string (44_decoder.md R201 to R203) -/

/-- Where the walk on these bits stands at the end: like `walkSymbols` it goes on from the root after each leaf. -/
def walkEnd (a : Vector Node 511) (i : NodeIx) : List Bool → NodeIx
  | [] => i
  | b :: bs =>
    match walkBit a i b with
    | none => i
    | some (c, m) => walkEnd a (if m.internal = true then c else Config.root) bs

section WalkSymbols
variable {a : Vector Node 511} {i j c : NodeIx} {b : Bool} {m : Node} {l r : List Bool}

theorem walkSymbols_cons_of_internal (h : walkBit a i b = some (c, m)) (hint : m.internal = true) :
    walkSymbols a i (b :: l) = walkSymbols a c l := by
  rw [walkSymbols, h]
  exact if_pos hint

theorem walkSymbols_cons_of_leaf (h : walkBit a i b = some (c, m)) (hleaf : m.internal = false) :
    walkSymbols a i (b :: l) = m.symbol :: walkSymbols a Config.root l := by
  rw [walkSymbols, h]
  exact if_neg (by simp [hleaf])

theorem walkEnd_cons_of_internal (h : walkBit a i b = some (c, m)) (hint : m.internal = true) :
    walkEnd a i (b :: l) = walkEnd a c l := by
  simp [walkEnd, h, hint]

theorem walkEnd_cons_of_leaf (h : walkBit a i b = some (c, m)) (hleaf : m.internal = false) :
    walkEnd a i (b :: l) = walkEnd a Config.root l := by
  simp [walkEnd, h, hleaf]

theorem internal_walkEnd (hpass : treeCheck a = none) (hi : Internal a i) (l : List Bool) :
    Internal a (walkEnd a i l) := by
  induction l generalizing i with
  | nil => exact hi
  | cons b l ih =>
    obtain ⟨c, m, hbit⟩ := exists_walkBit hpass hi b
    cases hm : m.internal with
    | false => exact walkEnd_cons_of_leaf hbit hm ▸ ih (root_internal_of_treeCheck hpass)
    | true => exact walkEnd_cons_of_internal hbit hm ▸ ih (internal_of_walkBit hbit hm)

theorem walkEnd_append (hpass : treeCheck a = none) (hi : Internal a i) (l r : List Bool) :
    walkEnd a i (l ++ r) = walkEnd a (walkEnd a i l) r := by
  induction l generalizing i with
  | nil => rfl
  | cons b l ih =>
    obtain ⟨c, m, hbit⟩ := exists_walkBit hpass hi b
    rw [List.cons_append]
    cases hm : m.internal with
    | false =>
      rw [walkEnd_cons_of_leaf hbit hm, walkEnd_cons_of_leaf hbit hm, ih (root_internal_of_treeCheck hpass)]
    | true =>
      rw [walkEnd_cons_of_internal hbit hm, walkEnd_cons_of_internal hbit hm, ih (internal_of_walkBit hbit hm)]

/-- The walk on a longer string goes on from where its first bits lead. -/
theorem walkSymbols_append (hpass : treeCheck a = none) (hi : Internal a i) (l r : List Bool) :
    walkSymbols a i (l ++ r) = walkSymbols a i l ++ walkSymbols a (walkEnd a i l) r := by
  induction l generalizing i with
  | nil => rfl
  | cons b l ih =>
    obtain ⟨c, m, hbit⟩ := exists_walkBit hpass hi b
    rw [List.cons_append]
    cases hm : m.internal with
    | false =>
      rw [walkSymbols_cons_of_leaf hbit hm, walkSymbols_cons_of_leaf hbit hm, walkEnd_cons_of_leaf hbit hm,
        ih (root_internal_of_treeCheck hpass), List.cons_append]
    | true =>
      rw [walkSymbols_cons_of_internal hbit hm, walkSymbols_cons_of_internal hbit hm,
        walkEnd_cons_of_internal hbit hm, ih (internal_of_walkBit hbit hm)]

/-- R202: the bits down to a leaf give its symbol, and the walk goes on from the root. -/
theorem walkSymbols_append_of_walkTo_leaf (h : walkTo a i l = some j) (hne : l ≠ []) (hj : nodeAt a j = some m)
    (hleaf : m.internal = false) (r : List Bool) :
    walkSymbols a i (l ++ r) = m.symbol :: walkSymbols a Config.root r := by
  induction l generalizing i with
  | nil => exact absurd rfl hne
  | cons b l ih =>
    obtain ⟨c, m', hbit, hrest, hint⟩ := walkBit_of_walkTo_cons h
    rw [List.cons_append]
    by_cases hnil : l = []
    · subst hnil
      obtain ⟨-, rfl⟩ := (walkTo_nil_eq_some_iff ..).mp hrest
      obtain rfl : m' = m := Option.some.inj ((nodeAt_of_walkBit hbit).symm.trans hj)
      exact walkSymbols_cons_of_leaf hbit hleaf
    · exact (walkSymbols_cons_of_internal hbit (hint hnil)).trans (ih hrest hnil)

/-- R203: a walk broken off before its end has passed no leaf. -/
theorem walkSymbols_eq_nil_of_walkTo (h : walkTo a i (l ++ r) = some j) (hr : r ≠ []) : walkSymbols a i l = [] := by
  induction l generalizing i with
  | nil => rfl
  | cons b l ih =>
    obtain ⟨c, m, hbit, hrest, hint⟩ := walkBit_of_walkTo_cons h
    exact (walkSymbols_cons_of_internal hbit (hint (List.append_ne_nil_of_right_ne_nil l hr))).trans (ih hrest)

end WalkSymbols

/-! ## DECODE's rounds of the schedule `pump` (log 1) -/

section DecodeRounds
variable {s t : State} {n : Nat} {rest : List InToken}

/-- R200: the loop's next bit leads to an internal node, and the loop goes on, or to a leaf. -/
theorem decodeBits_succ_next_cases (h : decodeBits (n + 1) s = .next t) :
    ∃ c m, walkBit s.node s.dstate (nextBit n s) = some (c, m) ∧
      (m.internal = true ∧ decodeBits n { setRcnt n s with dstate := c } = .next t ∨
        m.internal = false ∧ t = s.offering n c m.symbol) := by
  cases hbit : walkBit s.node s.dstate (nextBit n s) with
  | none => simp [decodeBits, hbit] at h
  | some x =>
    obtain ⟨c, m⟩ := x
    cases hm : m.internal with
    | false => exact ⟨c, m, rfl, .inr ⟨hm, Host.Outcome.next.inj (h.symm.trans (decodeBits_succ_of_leaf hbit hm))⟩⟩
    | true => exact ⟨c, m, rfl, .inl ⟨hm, (decodeBits_succ_of_internal hbit hm).symm.trans h⟩⟩

/-- The loop does not read OUT or the agenda. -/
theorem decodeBits_withOut (h : decodeBits n s = .next t) (sunk outq : List OutToken) (later : List Event) :
    decodeBits n (s.withOut sunk outq later) = .next (t.withOut sunk outq later) := by
  induction n generalizing s with
  | zero =>
    obtain rfl := Host.Outcome.next.inj h
    rfl
  | succ n ih =>
    obtain ⟨c, m, hbit, ⟨hint, hrest⟩ | ⟨hleaf, rfl⟩⟩ := decodeBits_succ_next_cases h
    · exact (decodeBits_succ_of_internal (s := s.withOut sunk outq later) hbit hint).trans (ih hrest)
    · exact decodeBits_succ_of_leaf (s := s.withOut sunk outq later) hbit hleaf

theorem pumpsTo_decode_of_pass (hrun : Runs .decode .start s) (hpass : treeCheck s.node = none)
    (h : decodeBits s.rcnt.toNat { s with treeValid := true, dstate := Config.root } = .next t) :
    PumpsTo s [] t := by
  refine .of_exec hrun (Nat.zero_le _) fun sunk outq later _ => ?_
  rw [List.append_nil]
  exact (exec_decode_of_pass (s := s.withOut sunk outq later) hrun hpass).trans (decodeBits_withOut h sunk outq later)

theorem pumpsTo_decode_of_byte {d : Byte} (hrun : Runs .decode .inTake s) (hsrc : s.source = .byte d :: rest)
    (h : decodeBits 8 (loadByte d { s with source := rest }) = .next t) : PumpsTo s [] t := by
  refine .of_exec hrun (Nat.zero_le _) fun sunk outq later _ => ?_
  rw [List.append_nil]
  exact (exec_decode_of_token (s := s.withOut sunk outq later) hrun hsrc).trans (decodeBits_withOut h sunk outq later)

/-- R202: once the symbol is out, the walk goes on from the root. -/
theorem pumpsTo_offering {c : NodeIx} {x : Byte} (hn : n < 8)
    (h : decodeBits n (s.offering n Config.root x) = .next t) : PumpsTo (s.offering n c x) [.byte x] t := by
  refine .of_exec (i := .decode) rfl (le_refl _) fun sunk outq later hroom => ?_
  have hrcnt : ((s.offering n c x).withOut sunk outq later).rcnt.toNat = n := Nat.mod_eq_of_lt hn
  have hrun : Runs .decode (.outPut (.byte x) .symbol) ((s.offering n c x).withOut sunk outq later) := rfl
  rw [exec_decode_of_symbol_room hrun hroom, hrcnt]
  exact decodeBits_withOut h sunk (outq ++ [.byte x]) later

theorem pumpsTo_decode_of_endStream (hrun : Runs .decode .inTake s) (hsrc : s.source = .endStream :: rest) :
    PumpsTo s [] (enter .decode (.outPut .endStream .ended) { s with source := rest, dstate := Config.root }) := by
  refine .of_exec hrun (Nat.zero_le _) fun sunk outq later _ => ?_
  rw [List.append_nil]
  exact exec_decode_of_token (s := s.withOut sunk outq later) hrun hsrc

theorem pumpsTo_decode_of_ended {tok : OutToken} (hrun : Runs .decode (.outPut tok .ended) s) :
    PumpsTo s [tok] (complete s) :=
  .of_exec hrun (le_refl _) fun sunk outq later hroom =>
    exec_of_ended_room (s := s.withOut sunk outq later) (by simp) hrun hroom

/-- The bits left of RBUF: a round for each leaf they lead to, and then the next InTake. -/
theorem pumpsTo_decodeBits (hpass : treeCheck s.node = none) (hn : n ≤ 8) (h : decodeBits n s = .next t) :
    PumpsTo t ((walkSymbols s.node s.dstate (lowBits s.rbuf n)).map .byte)
      (s.awaiting (walkEnd s.node s.dstate (lowBits s.rbuf n))) := by
  induction n generalizing s t with
  | zero =>
    obtain rfl := Host.Outcome.next.inj h
    exact lowBits_zero s.rbuf ▸ .refl _
  | succ n ih =>
    rw [lowBits_succ _ hn]
    obtain ⟨c, m, hbit, ⟨hint, hrest⟩ | ⟨hleaf, rfl⟩⟩ := decodeBits_succ_next_cases h
    · rw [walkSymbols_cons_of_internal hbit hint, walkEnd_cons_of_internal hbit hint]
      exact ih (s := { setRcnt n s with dstate := c }) hpass (by omega) hrest
    · obtain ⟨t, ht⟩ := exists_next_decodeBits (s := s.offering n Config.root m.symbol) hpass
        (root_internal_of_treeCheck hpass) n
      rw [walkSymbols_cons_of_leaf hbit hleaf, walkEnd_cons_of_leaf hbit hleaf, List.map_cons]
      exact (pumpsTo_offering hn ht).trans (ih (s := s.offering n Config.root m.symbol) hpass (by omega) ht)

end DecodeRounds

/-! ## The whole stream -/

/-- DECODE stands at InTake with the tokens `src` offered, the byte `d` used up and the walk at node `i`. -/
def State.decoding (s : State) (src : List InToken) (d : Byte) (i : NodeIx) : State :=
  { s with source := src, treeValid := true, rbuf := d }.awaiting i

/-- R203: END discards the walk. -/
theorem pumpsTo_decoding_end (s : State) (x : Byte) (i : NodeIx) (rest : List InToken) :
    PumpsTo (s.decoding (.endStream :: rest) x i) [.endStream]
      (complete (s.decoding rest x Config.root)) := by
  have hend := pumpsTo_decode_of_endStream (s := s.decoding (.endStream :: rest) x i) rfl rfl
  exact hend.trans (pumpsTo_decode_of_ended rfl)

section DecodeStream
variable {s : State} (hpass : treeCheck s.node = none)
include hpass

/-- DECODE's start: the walk on the bits that were unread before. -/
theorem pumpsTo_decode_unread (hrun : Runs .decode .start s) :
    PumpsTo s ((walkSymbols s.node Config.root (unreadBits s)).map .byte)
      (s.decoding s.source s.rbuf (walkEnd s.node Config.root (unreadBits s))) := by
  obtain ⟨t, ht⟩ := exists_next_decodeBits (s := { s with treeValid := true, dstate := Config.root }) hpass
    (root_internal_of_treeCheck hpass) s.rcnt.toNat
  have hwalk := pumpsTo_decodeBits (s := { s with treeValid := true, dstate := Config.root }) hpass s.rcnt.isLt.le ht
  exact (pumpsTo_decode_of_pass hrun hpass ht).trans hwalk

theorem pumpsTo_decoding_byte {i : NodeIx} (hi : Internal s.node i) (d x : Byte) (src : List InToken) :
    PumpsTo (s.decoding (.byte d :: src) x i) ((walkSymbols s.node i (byteBits d)).map .byte)
      (s.decoding src d (walkEnd s.node i (byteBits d))) := by
  obtain ⟨t, ht⟩ := exists_next_decodeBits (s := s.decoding src d i) hpass hi 8
  have htake : PumpsTo (s.decoding (.byte d :: src) x i) [] t := pumpsTo_decode_of_byte rfl rfl ht
  exact htake.trans (pumpsTo_decodeBits (s := s.decoding src d i) hpass (le_refl 8) ht)

theorem pumpsTo_decoding_input {i : NodeIx} (hi : Internal s.node i) (packed : List Byte) (x : Byte)
    (src : List InToken) :
    PumpsTo (s.decoding (packed.map .byte ++ src) x i)
      ((walkSymbols s.node i (packed.flatMap byteBits)).map .byte)
      (s.decoding src (packed.getLast?.getD x) (walkEnd s.node i (packed.flatMap byteBits))) := by
  induction packed generalizing i x with
  | nil => exact .refl _
  | cons d packed ih =>
    have hbyte := pumpsTo_decoding_byte hpass hi d x (packed.map .byte ++ src)
    have hinput := hbyte.trans (ih (internal_walkEnd hpass hi (byteBits d)) d)
    rw [← List.map_append, ← walkSymbols_append hpass hi, ← walkEnd_append hpass hi] at hinput
    rw [List.flatMap_cons, List.getLast?_cons, Option.getD_some]
    exact hinput

end DecodeStream

/-- Settles O45: the rounds of the unread bits, of the bytes and of END. -/
theorem decodeEmitsTheWalkedSymbols : Obligations.DecodeEmitsTheWalkedSymbols := by
  intro s packed rest hrun hpass hcap hsrc
  have hroot : Internal s.node Config.root := root_internal_of_treeCheck hpass
  have hunread := hsrc ▸ pumpsTo_decode_unread hpass hrun
  have hinput := pumpsTo_decoding_input hpass (internal_walkEnd hpass hroot (unreadBits s)) packed s.rbuf
    (.endStream :: rest)
  have hwhole := (hunread.trans hinput).trans (pumpsTo_decoding_end s _ _ rest)
  rw [← List.map_append, ← walkSymbols_append hpass hroot] at hwhole
  obtain ⟨n, sunk, outq, hsteps, hout⟩ := hwhole.runSteps hcap
  refine ⟨n, _, hsteps, ?_, rfl⟩
  rw [List.append_assoc]
  exact hout

end Sys2Proof.Machine

namespace Sys2Proof.Machine

/-! ## The round trip (44_decoder.md R206) -/

/-- R69: whole bytes hold exactly the bits they were cut from. -/
theorem flatMap_byteBits_packBytes {l : List Bool} (h : l.length % 8 = 0) : (packBytes l).flatMap byteBits = l := by
  induction l using byteInduction with
  | short l hl =>
    obtain rfl : l = [] := List.eq_nil_of_length_eq_zero (by omega)
    rfl
  | byte a b ha ih =>
    rw [packBytes_append_of_byte ha, List.flatMap_cons, byteBits_bitsByte ha,
      ih (by rw [List.length_append] at h; omega)]

section BuiltTable
variable {w : Vector Word 256} {b : Builder} {x : Extractor} (hx : extractTable (buildTree w b).node = .ok x)
include hx

/-- R147: a code leads from the root to its symbol's leaf, and is not empty. -/
theorem walkTo_codeString (d : Byte) :
    codeString x.len x.code d ≠ [] ∧
      walkTo (buildTree w b).node Config.root (codeString x.len x.code d) = some (leafIx d) := by
  obtain ⟨x', hx', hpaths⟩ := builtTableIsTreePaths w b
  obtain rfl : x = x' := Except.ok.inj (hx.symm.trans hx')
  obtain ⟨hpos, -, hwalk⟩ := hpaths d
  exact ⟨List.ne_nil_of_length_pos (length_codeString x.len x.code d ▸ hpos), hwalk⟩

/-- R206: as some code has 8 bits or more, a padding symbol is there for every number of missing bits. -/
theorem padExists_missingBits (l : List Bool) : padExists x.len (missingBits l) := by
  obtain ⟨x', hx', -, -, y, hy⟩ := builtTableIsPrefixFree w b
  obtain rfl : x = x' := Except.ok.inj (hx.symm.trans hx')
  exact ⟨y, lt_of_lt_of_le (Nat.mod_lt _ (by omega)) hy⟩

/-- R202: the walk on the codes of the input gives the input. -/
theorem walkSymbols_codeStrings (input : List Byte) (l : List Bool) :
    walkSymbols (buildTree w b).node Config.root (input.flatMap (codeString x.len x.code) ++ l) =
      input ++ walkSymbols (buildTree w b).node Config.root l := by
  induction input with
  | nil => rfl
  | cons d input ih =>
    obtain ⟨hne, hwalk⟩ := walkTo_codeString hx d
    rw [List.flatMap_cons, List.append_assoc,
      walkSymbols_append_of_walkTo_leaf hwalk hne (nodeAt_leafIx w b d) rfl, ih]
    rfl

/-- R182, R203: the padding is less than a code, and the walk on it is discarded. -/
theorem walkSymbols_padding {k : Nat} {pad : List Bool} (hpad : IsPadding x.len x.code k pad) :
    walkSymbols (buildTree w b).node Config.root pad = [] := by
  obtain ⟨-, rfl⟩ | ⟨-, p, hlong, -, rfl⟩ := hpad
  · rfl
  · obtain ⟨-, hwalk⟩ := walkTo_codeString hx p
    rw [← List.take_append_drop k (codeString x.len x.code p)] at hwalk
    refine walkSymbols_eq_nil_of_walkTo hwalk (List.ne_nil_of_length_pos ?_)
    rw [List.length_drop, length_codeString]
    omega

/-- R206: the walk on the bytes ENCODE emits gives the input. -/
theorem walkSymbols_packBytes {input : List Byte} {bits pad : List Bool}
    (hbits : bits = input.flatMap (codeString x.len x.code))
    (hpad : IsPadding x.len x.code (missingBits bits) pad) :
    walkSymbols (buildTree w b).node Config.root ((packBytes (bits ++ pad)).flatMap byteBits) = input := by
  have hwhole : (bits ++ pad).length % 8 = 0 := by
    rw [List.length_append, length_of_isPadding hpad, missingBits]
    omega
  rw [flatMap_byteBits_packBytes hwhole, hbits, walkSymbols_codeStrings hx, walkSymbols_padding hx hpad,
    List.append_nil]

end BuiltTable

theorem heldBits_of_wcnt_zero {s : State} (h : s.wcnt = 0#3) : heldBits s = [] :=
  List.eq_nil_of_length_eq_zero (by rw [length_heldBits, h]; rfl)

theorem unreadBits_of_rcnt_zero {s : State} (h : s.rcnt = 0#3) : unreadBits s = [] := by
  rw [unreadBits, h]
  exact lowBits_zero s.rbuf

/-- Settles O46: ENCODE emits the packed stream (O41), and DECODE the symbols its walk on it reaches (O45). -/
theorem roundTripLaw : Obligations.RoundTripLaw := by
  intro w b
  obtain ⟨x, hx, -⟩ := extractTable_buildTree w b
  refine ⟨x, hx, fun s input rest hlen hcode hrun htable hwcnt hwbuf hcap hsrc => ?_⟩
  have hclean : WriteCursorOk s := .inr fun j _ => by simp [hwbuf]
  obtain ⟨pad, n, t, hpad, -, hsteps, hemit, ht⟩ := encodeEmitsThePackedStream s input rest hrun htable hclean hcap
    hsrc (.inr (hlen ▸ padExists_missingBits hx _))
  rw [heldBits_of_wcnt_zero hwcnt, List.nil_append, hlen, hcode] at hpad hemit
  refine ⟨_, n, t, hsteps, by rw [ht], by rw [ht], hemit, fun u rest' hrun' hnode hrcnt hcap' hsrc' => ?_⟩
  have hpass : treeCheck u.node = none := hnode ▸ treeCheck_buildTree w b
  obtain ⟨m, v, hsteps', hemit', hv⟩ := decodeEmitsTheWalkedSymbols u _ rest' hrun' hpass hcap' hsrc'
  rw [unreadBits_of_rcnt_zero hrcnt, List.nil_append, hnode, walkSymbols_packBytes hx rfl hpad] at hemit'
  exact ⟨m, v, hsteps', by rw [hv], by rw [hv], hemit'⟩

end Sys2Proof.Machine

namespace Sys2Proof.Machine

/-! ## Acceptance of a command word (45_control.md R220) -/

theorem move_writeCmd (v : Word) (s : State) : move (.host (writeRegAccess .cmd v)) s = .next (present v s) :=
  hostAccess_writeRegAccess .cmd v s

section Acceptance
variable {v : Word} {s : State}

theorem present_of_busy (hbusy : s.busy = true) : present v s = drop s := by
  obtain ⟨hdrop, -⟩ | ⟨hidle, -, -⟩ := present_cases v s
  · exact hdrop
  · simp [hidle] at hbusy

theorem present_of_err (herr : s.err = true) (hv : v ≠ encode .clear) : present v s = drop s := by
  obtain ⟨hdrop, -⟩ | ⟨-, hnoErr | hclear, -⟩ := present_cases v s
  · exact hdrop
  · simp [hnoErr] at herr
  · exact absurd hclear hv

/-- R220: a legal word is taken by an idle engine without an error; with one latched, only CLEAR's is. -/
theorem present_of_decode_ok {i : Instr} (hdec : decode v = .ok i) (hidle : s.busy = false)
    (htaken : s.err = false ∨ v = encode .clear) : present v s = accept v s := by
  have hkept : ¬ (s.err = true ∧ v ≠ encode .clear) := by
    rintro ⟨herr, hv⟩
    obtain hnoErr | hclear := htaken
    · simp [hnoErr] at herr
    · exact hv hclear
  rw [present, if_neg (by simp [hidle]), if_neg hkept, hdec]

end Acceptance

/-- R92, R93: a word that is not illegal stands for a command. -/
theorem exists_decode_ok {v : Word} (hlegal : illegal v = false) : ∃ i, decode v = .ok i := by
  cases hdec : decode v with
  | ok i => exact ⟨i, rfl⟩
  | error e => simp [illegal_of_decode_error hdec] at hlegal

/-- Settles O10: an illegal word is not CLEAR's, so it is taken without an error only, and O2 says what it does. -/
theorem commandAcceptance : Obligations.CommandAcceptance := by
  refine fun s v => ⟨fun hbusy => ?busy, fun _ herr hv => ?err, fun hidle htaken hillegal => ?illegal,
    fun hidle htaken hlegal => ?legal⟩
  case busy => exact (move_writeCmd v s).trans (congrArg _ (present_of_busy hbusy))
  case err => exact (move_writeCmd v s).trans (congrArg _ (present_of_err herr hv))
  case illegal =>
    have hnoErr : s.err = false := htaken.resolve_right fun hclear => by
      have hlegal : illegal v = false := hclear ▸ illegal_encode .clear
      simp [hlegal] at hillegal
    obtain ⟨-, heffect⟩ := illegalWordsRaiseIllegalCommand s v
    exact heffect ((illegal_iff_decode_error v).mp hillegal) hidle hnoErr
  case legal =>
    obtain ⟨i, hdec⟩ := exists_decode_ok hlegal
    exact (move_writeCmd v s).trans (congrArg _ (present_of_decode_ok hdec hidle htaken))

/-! ## NOP and CLEAR (45_control.md R221, R222) -/

/-- Settles O22: NOP is `complete()`. -/
theorem nopCompletes : Obligations.NopCompletes := fun _ => rfl

/-- Settles O23: CLEAR is `complete()` of a cleared error; its word's acceptance, and the drop of the others, are O10. -/
theorem clearGivesFreshState : Obligations.ClearGivesFreshState := by
  intro s
  refine ⟨rfl, fun hidle => ?taken, fun v => ?dropped⟩
  case taken =>
    obtain ⟨-, -, -, hlegal⟩ := commandAcceptance s (encode .clear)
    exact hlegal hidle (.inr rfl) (illegal_encode .clear)
  case dropped =>
    obtain ⟨-, herr, -, -⟩ := commandAcceptance s v
    exact herr

end Sys2Proof.Machine

namespace Sys2Proof.Machine

/-! ## A latched error is kept (60_exceptions.md R248) -/

section LatchedError
variable {s t : State}

theorem OnlyEnvironmentChanged.latchOf_eq (henv : OnlyEnvironmentChanged s t) : t.latchOf = s.latchOf := by
  rw [henv.1]
  rfl

/-- R220: a word presented while an error is latched is dropped, or is CLEAR's, which is legal. -/
theorem latchOf_present_of_err (herr : s.err = true) (v : Word) : (present v s).latchOf = s.latchOf := by
  obtain ⟨hdrop, -⟩ | ⟨-, htaken, ⟨e, hdec, -⟩ | ⟨i, -, haccept⟩⟩ := present_cases v s
  · rw [hdrop]
    rfl
  · obtain hnoErr | rfl := htaken
    · simp [herr] at hnoErr
    · simp at hdec
  · rw [haccept]
    rfl

/-- Of all register writes that reset nothing, only CMD's can touch the latch. -/
theorem latchOf_writeReg_of_err (herr : s.err = true) {r : Reg} {v : Word}
    (hreset : ¬ (r = .ctrl ∧ v.getLsbD 0 = true)) : (writeReg r v s).latchOf = s.latchOf := by
  by_cases hcmd : r = .cmd
  · subst hcmd
    exact latchOf_present_of_err herr v
  · have hwrite := regWrite_writeReg r v s hreset
    generalize writeReg r v s = t at hwrite ⊢
    cases hwrite with
    | commandIllegal => exact absurd rfl hcmd
    | _ => rfl

/-- R220: CLEAR is the only command that runs while an error is latched. -/
theorem MachineInv.engineMoves_clear (h : MachineInv s) (herr : s.err = true) {i : Instr} {p : Phase}
    (hmoves : EngineMoves s i p) : i = .clear := by
  obtain ⟨-, w, hrun, hdec⟩ := hmoves
  obtain ⟨j, hdec', -, -, hclear, -⟩ := h.engine w p hrun
  obtain rfl : i = j := by simpa [hdec] using hdec'
  exact hclear herr

theorem step_keeps_latch (h : MachineInv s) (herr : s.err = true) (hstep : step s = .next t)
    (hreset : ¬ SoftResets s) (hclear : ¬ ∃ p, EngineMoves s .clear p) : t.latchOf = s.latchOf := by
  obtain ⟨i, p, s', hmoves, -⟩ | ⟨r, v, s', hwrites, henv, rfl⟩ | henv := step_cases hstep
  · obtain rfl := h.engineMoves_clear herr hmoves
    exact absurd ⟨p, hmoves⟩ hclear
  · have hnoReset : ¬ (r = .ctrl ∧ v.getLsbD 0 = true) := by
      rintro ⟨rfl, hbit⟩
      exact hreset ⟨v, hwrites, hbit⟩
    have herr' : s'.err = true := (congrArg Prod.fst henv.latchOf_eq).trans herr
    exact (latchOf_writeReg_of_err herr' hnoReset).trans henv.latchOf_eq
  · exact henv.latchOf_eq

end LatchedError

/-- Settles O53. -/
theorem latchedErrorIsKept : Obligations.LatchedErrorIsKept := by
  intro s t h herr hstep hreset hclear
  obtain ⟨herr', hcode, hinfo⟩ : t.err = s.err ∧ t.errCode = s.errCode ∧ t.errInfo = s.errInfo := by
    simpa [State.latchOf] using step_keeps_latch h herr hstep hreset hclear
  exact ⟨herr'.trans herr, hcode, hinfo⟩

end Sys2Proof.Machine

namespace Sys2Proof.Machine

/-! ## What HOST can do to a running command (60_exceptions.md R246, R251) -/

/-- The two states differ at most in DONE, DROPPED, IRQ_EN and in the host's own program and records. -/
def LeavesCommandAlone (s t : State) : Prop :=
  t = { s with
    done := t.done, dropped := t.dropped, irqEn := t.irqEn, reads := t.reads
    program := t.program, bindings := t.bindings, checks := t.checks, draws := t.draws }

section Undisturbed
variable {s t u : State}

theorem LeavesCommandAlone.trans (hst : LeavesCommandAlone s t) (htu : LeavesCommandAlone t u) :
    LeavesCommandAlone s u := by
  rw [LeavesCommandAlone, hst] at htu
  exact htu

theorem leavesCommandAlone_advance (st : HostStmt) (rest : List HostStmt) (v : Word) (s : State) :
    LeavesCommandAlone s (advance st rest v s) := by
  rw [advance_frame]
  rfl

/-- R64, R220: the writes that could reach a running command are dropped. -/
theorem RegWrite.leavesCommandAlone {r : Reg} {v : Word} (h : RegWrite s r v t) (hbusy : s.busy = true) :
    LeavesCommandAlone s t := by
  cases h with
  | commandIllegal _ hidle | commandAccepted _ hidle | weight _ _ hidle | node _ _ hidle => simp [hbusy] at hidle
  | _ => rfl

/-- The access may come after the host's program has moved on: `s₀` is the state the step began in, `s` the state the
access finds. -/
theorem hostAccess_leavesCommandAlone {s₀ : State} {a : HostAccess} (hnext : nextAccess s₀ = some a)
    (hreset : ¬ SoftResets s₀) (hbusy : s.busy = true) (h : hostAccess a s = .next t) : LeavesCommandAlone s t := by
  obtain ⟨-, hr | hr⟩ | ⟨-, -, hr⟩ | ⟨hwf, v, hkind, hr⟩ := hostAccess_cases a s
  · simp [hr] at h
  · simp [hr] at h
  · obtain rfl : hostRead a.offset s = t := by simpa [hr] using h
    rfl
  · obtain rfl : hostWrite a.offset v s = t := by simpa [hr] using h
    unfold hostWrite
    split
    · rename_i r hreg
      have hnoReset : ¬ (r = .ctrl ∧ v.getLsbD 0 = true) := by
        rintro ⟨rfl, hbit⟩
        exact hreset ⟨v, ⟨a, hnext, hwf, hkind, hreg⟩, hbit⟩
      exact (regWrite_writeReg r v s hnoReset).leavesCommandAlone hbusy
    · rfl

theorem hostMove_leavesCommandAlone {s₀ : State} {later : List Event} (hag : s₀.agenda = .hostStmt :: later)
    (hprog : s.program = s₀.program) (hreset : ¬ SoftResets s₀) (hbusy : s.busy = true) (h : hostMove s = .next t) :
    LeavesCommandAlone s t := by
  cases hs : s.program with
  | nil =>
    obtain rfl := Host.Outcome.next.inj ((hostMove_nil hs).symm.trans h)
    rfl
  | cons st rest =>
    obtain ⟨-, hmove⟩ | ⟨a, ha, hmove⟩ := hostMove_cons hs
    · obtain rfl := Host.Outcome.next.inj (hmove.symm.trans h)
      exact leavesCommandAlone_advance ..
    · have hnext : nextAccess s₀ = some a := by simp [nextAccess, hag, ← hprog, hs, ha]
      have hadvance := leavesCommandAlone_advance st rest (readValue a.offset s) s
      have hbusy' : (advance st rest (readValue a.offset s) s).busy = true := by
        rw [hadvance]
        exact hbusy
      exact hadvance.trans (hostAccess_leavesCommandAlone hnext hreset hbusy' (hmove.symm.trans h))

end Undisturbed

/-- Settles O55: once the event is used up, the move changes nothing but what `LeavesCommandAlone` lists. -/
theorem hostCannotDisturbARunningCommand : Obligations.HostCannotDisturbARunningCommand := by
  intro s t e rest hbusy hag he hreset hstep
  rw [step_of_agenda_cons hag] at hstep
  obtain rfl | ⟨a, rfl⟩ := he
  · exact hostMove_leavesCommandAlone (s := { s with agenda := rest }) hag rfl hreset hbusy hstep
  · have hnext : nextAccess s = some a := by simp [nextAccess, hag]
    exact hostAccess_leavesCommandAlone (s := { s with agenda := rest }) hnext hreset hbusy hstep

/-! ## A raise that aborts a stream (60_exceptions.md R242, R243) -/

/-- Settles O21: the raise enters OutPut(ABORT), which takes the token and latches, or waits. -/
theorem abortIsEmittedBeforeTheLatch : Obligations.AbortIsEmittedBeforeTheLatch := fun s i e info hi =>
  ⟨fun he => raiseError_of_abortsStream ((abortsStream_iff e i).mpr ⟨he, hi⟩) info s, exec_of_aborted_room hi,
    exec_of_full (.aborted hi e info)⟩

end Sys2Proof.Machine

namespace Sys2Proof.Machine

/-! ## The first command after reset (70_reset_and_hazards.md R273) -/

/-- Log 2: with no event to come, the command just accepted moves next. -/
theorem step_accept_encode {s : State} (hagenda : s.agenda = []) (i : Instr) :
    step (accept (encode i) s) = exec i (accept (encode i) s) := by
  obtain ⟨hnil, -⟩ := stepRunsDecodedInstruction (accept (encode i) s) (encode i) .start i rfl (decode_encode i)
  exact hnil hagenda

/-- R47: the arena of zeros has a leaf at its root. -/
theorem treeCheck_reset : treeCheck State.reset.node = some (0, .rootLeaf) :=
  treeCheck_of_root_leaf (by simp [State.reset, Node.zero])

/-- Settles O17: CHECK is O29 at node 0 and condition T1, EXTRACT and DECODE are O33, ENCODE is O39 without a table. -/
theorem firstCommandsAfterReset : Obligations.FirstCommandsAfterReset := by
  refine ⟨fun i hi => ?tree, ?encode⟩
  case tree =>
    rw [step_accept_encode rfl]
    obtain rfl | rfl | rfl := hi
    · obtain ⟨h0, hleaf, hlow⟩ := (treeCheck_eq_some_iff ..).mp treeCheck_reset
      obtain ⟨-, hfails, -⟩ := checkDecidesWellFormedness (accept (encode .check) State.reset)
      exact hfails 0 h0 .rootLeaf hleaf hlow
    · obtain ⟨hextract, -⟩ :=
        failingArenaStopsExtractAndDecode (accept (encode .extract) State.reset) _ _ treeCheck_reset
      exact hextract
    · obtain ⟨-, hdecode⟩ :=
        failingArenaStopsExtractAndDecode (accept (encode .decode) State.reset) _ _ treeCheck_reset
      exact hdecode rfl
  case encode =>
    obtain ⟨hnoTable, -⟩ := encodeStartsAndEnds (accept (encode .encode) State.reset)
    exact (step_accept_encode rfl .encode).trans (hnoTable rfl rfl)

/-! ## The soft reset (70_reset_and_hazards.md R271, R272) -/

theorem move_softReset {v : Word} (hbit : v.getLsbD 0 = true) (s : State) :
    move (.host (writeRegAccess .ctrl v)) s = .next (softReset s) := by
  obtain ⟨hctrl, -⟩ := hostWriteEffects s v
  rw [hctrl, if_pos hbit]

/-- Settles O18. -/
theorem softResetEndsEverything : Obligations.SoftResetEndsEverything := fun s _ hbit =>
  ⟨softReset s, move_softReset hbit s, rfl⟩

end Sys2Proof.Machine
